-- ==== Sys2Proof/Word.lean ====
section
/-! DEFINITION. The word types of the model (spec/10_state.md R22, R25, R50; spec/30_encoding.md R104). -/

namespace Sys2Proof

/-- A register's contents. Every register is held in 64 bits; a hart with MXLEN = 32 uses the low 32 (R50). -/
abbrev Word := BitVec 64

/-- One byte of the memory a program was loaded into. -/
abbrev Byte := BitVec 8

/-- The number of a general register, `x0` to `x31` (R22). -/
abbrev Reg := BitVec 5

/-- The number of a control and status register, 12 bits (R101). -/
abbrev CsrNum := BitVec 12

end Sys2Proof
end

