-- ==== Sys2Proof/Syntax.lean ====
section
/-! DEFINITION. The instructions: one constructor per row of spec/opcode_table.json (spec/30_encoding.md R112).
Immediates are held as the spec assembles them (R107), with the bit 0 that every jump and branch offset has. -/

namespace Sys2Proof

/-- The host instructions CTR is accessed through or observes (R112). -/
inductive Instr where
  /-- R140 -/
  | csrrw (rd : Reg) (csr : CsrNum) (rs1 : Reg)
  /-- R141 -/
  | csrrs (rd : Reg) (csr : CsrNum) (rs1 : Reg)
  /-- R142 -/
  | csrrc (rd : Reg) (csr : CsrNum) (rs1 : Reg)
  /-- R143 -/
  | csrrwi (rd : Reg) (csr : CsrNum) (uimm : BitVec 5)
  /-- R144 -/
  | csrrsi (rd : Reg) (csr : CsrNum) (uimm : BitVec 5)
  /-- R145 -/
  | csrrci (rd : Reg) (csr : CsrNum) (uimm : BitVec 5)
  /-- R260 -/
  | jal (rd : Reg) (off : BitVec 21)
  /-- R261 -/
  | jalr (rd : Reg) (rs1 : Reg) (imm : BitVec 12)
  /-- R262 -/
  | beq (rs1 rs2 : Reg) (off : BitVec 13)
  /-- R263 -/
  | bne (rs1 rs2 : Reg) (off : BitVec 13)
  /-- R264 -/
  | blt (rs1 rs2 : Reg) (off : BitVec 13)
  /-- R265 -/
  | bge (rs1 rs2 : Reg) (off : BitVec 13)
  /-- R266 -/
  | bltu (rs1 rs2 : Reg) (off : BitVec 13)
  /-- R267 -/
  | bgeu (rs1 rs2 : Reg) (off : BitVec 13)
  /-- R268 -/
  | cj (off : BitVec 12)
  /-- R269, XLEN = 32 only -/
  | cjal (off : BitVec 12)
  /-- R270 -/
  | cjr (rs1 : Reg)
  /-- R271 -/
  | cjalr (rs1 : Reg)
  /-- R272 -/
  | cbeqz (rs1 : Reg) (off : BitVec 9)
  /-- R273 -/
  | cbnez (rs1 : Reg) (off : BitVec 9)
  /-- R274 -/
  | cebreak
  /-- R275 -/
  | mret
  /-- R276 -/
  | sret
  /-- R277 -/
  | ecall
  /-- R278 -/
  | ebreak
deriving DecidableEq, Repr

end Sys2Proof
end

