-- ==== Sys2Proof/Config.lean ====
section
/-! DEFINITION. The implementation parameters of spec/00_scope.md R9 as one record of plain data, and the free
values: constants without a body, of which nothing can be proved. What each parameter means is in
Machine/Params.lean; the constraints R9 puts on them are `Config.wf` in WellFormed.lean. -/

namespace Sys2Proof

/-- An effective register width, 32 or 64 (R9: MXLEN, XLEN(mode)). -/
inductive Xlen where
  | x32
  | x64
deriving DecidableEq, Repr

/-- One of the five defined DEPTH encodings (R32): 16, 32, 64, 128 or 256 entries. -/
inductive DepthCode where
  | d16
  | d32
  | d64
  | d128
  | d256
deriving DecidableEq, Repr

/-- The optional control fields, the members IMPL_M and IMPL_VS may have (R9). In `vsctrcontrol` the name `ste` is the
bit VSTE, and `mte` does not exist (R39, R40). -/
inductive CtlField where
  | mte
  | ste
  | rasemu
  | bpfrz
  | lcofifrz
  | excinh
  | intrinh
  | tretinh
  | ntbren
  | tkbrinh
  | eten
  | indcallinh
  | dircallinh
  | indjumpinh
  | dirjumpinh
  | corswapinh
  | retinh
  | indojmpinh
  | dirojmpinh
deriving DecidableEq, Repr

/-- CROSS_V_CFG (R9, R215): whose control register configures a trap or trap return that changes V. -/
inductive CrossV where
  | source
  | target
deriving DecidableEq, Repr

/-- RASEMU_CC (R9, R306): the cycle count in RAS emulation mode. -/
inductive RasCc where
  | accumulate
  | ccv0
deriving DecidableEq, Repr

/-- The kinds of instruction that retire as a control transfer (R232). -/
inductive Kind where
  | ntbr
  | tkbr
  | indcall
  | dircall
  | indjump
  | dirjump
  | corswap
  | ret
  | indojmp
  | dirojmp
deriving DecidableEq, Repr

/-- `legalize_va` (R9, R52): the identity (the default of decision D29), or an implementation that holds only valid
addresses and converts the others (log 24). -/
inductive VaMode where
  | exact
  | converting
deriving DecidableEq, Repr

/-- The parameters of R9, and the few choices the host leaves to an implementation (logs 2, 5, 16). -/
structure Config where
  /-- MXLEN -/
  mxlen : Xlen
  /-- XLEN of S-mode; never above MXLEN (`xlenOf`) -/
  sxlen : Xlen
  /-- XLEN of U-mode -/
  uxlen : Xlen
  /-- XLEN of VS-mode -/
  vsxlen : Xlen
  /-- XLEN of VU-mode -/
  vuxlen : Xlen
  /-- HAS_S -/
  hasS : Bool
  /-- HAS_U -/
  hasU : Bool
  /-- HAS_H -/
  hasH : Bool
  /-- HAS_SMSTATEEN -/
  hasSmstateen : Bool
  /-- the host implements the C extension (section 4 of spec/45_transfer_type_filtering.md) -/
  hasC : Bool
  /-- DEPTH_MIN -/
  depthMin : DepthCode
  /-- DEPTH_MAX -/
  depthMax : DepthCode
  /-- `legalize_depth` where R9 leaves it free, by the written value (log 25) -/
  depthOther : Vector DepthCode 16
  /-- WRPTR_BITS -/
  wrptrBits : Fin 9
  /-- IMPL_M -/
  implM : List CtlField
  /-- IMPL_VS -/
  implVS : List CtlField
  /-- HAS_MISP -/
  hasMisp : Bool
  /-- HAS_TYPE -/
  hasType : Bool
  /-- HAS_CC -/
  hasCc : Bool
  /-- CCE_BITS -/
  cceBits : Fin 5
  /-- `legalize_va` -/
  vaMode : VaMode
  /-- EXTTRAP_TYPE (open: decision D8, log 26) -/
  extTrapType : BitVec 4
  /-- CROSS_V_CFG -/
  crossV : CrossV
  /-- RASEMU_CC -/
  rasCc : RasCc
  /-- CLASSIFY (R9, R233), where it differs from the default table of R233: the kind of a retired instruction, a
  compressed one standing as the instruction it expands to (R110), and whether it jumped (log 31) -/
  classify : List ((Instr × Bool) × Kind)
  /-- the pc after reset, implementation-defined (R381) -/
  resetPc : Word
  /-- `xtval` of an illegal or virtual instruction exception is the instruction's bits; otherwise 0 (R351) -/
  tvalBits : Bool
  /-- `xtval` of a breakpoint exception is the pc; otherwise 0 (R351) -/
  tvalPc : Bool
deriving DecidableEq, Repr

/-- The free values (R11 `draw`, logs 3 and 23): `Config.draw n k` is the k-th value drawn by the n-th event. -/
opaque Config.draw : Nat → Nat → BitVec 64

/-- A drawn natural number, for `cc_count` after CLR and reset (R130, R380). -/
opaque Config.drawNat : Nat → Nat

/-- Which PC fields (an address without its bit 0) are valid virtual addresses beside 0: the host's translation
mode decides (R52, log 24). -/
opaque Config.vaValid : BitVec 63 → Bool

/-- The address an implementation converts an invalid one to, by the width of the PC field (R52, log 24). -/
opaque Config.vaConvert : Nat → BitVec 63 → BitVec 63

/-- Which legal value a WARL host field takes on an illegal write: a function of the value written and the value
held (R13, log 11). -/
opaque Config.warlPick : Word → Word → Nat

/-- EXTTRAP_TYPE of the reset state's configuration: open (D8), so a constant of which nothing is known (log 26). -/
opaque Config.openExtTrapType : BitVec 4

end Sys2Proof
end

