-- ==== Sys2Proof/WellFormed.lean ====
section
/-! DEFINITION. Which instructions have an encoding (spec/30_encoding.md R107, R108), and which configurations meet
the constraints of spec/00_scope.md R9. -/

namespace Sys2Proof

/-- An instruction an encoding stands for: jump and branch offsets are multiples of 2 (R107), `c.jr` and `c.jalr` do
not name `x0` (R108), `c.beqz` and `c.bnez` name `x8` to `x15` (R107). -/
def Instr.wf : Instr → Bool
  | .csrrw _ _ _ | .csrrs _ _ _ | .csrrc _ _ _ => true
  | .csrrwi _ _ _ | .csrrsi _ _ _ | .csrrci _ _ _ => true
  | .jal _ off => !off.getLsbD 0
  | .jalr _ _ _ => true
  | .beq _ _ off | .bne _ _ off | .blt _ _ off => !off.getLsbD 0
  | .bge _ _ off | .bltu _ _ off | .bgeu _ _ off => !off.getLsbD 0
  | .cj off | .cjal off => !off.getLsbD 0
  | .cjr rs1 | .cjalr rs1 => rs1 != 0
  | .cbeqz rs1 off | .cbnez rs1 off => rs1.extractLsb' 3 2 == 1 && !off.getLsbD 0
  | .cebreak | .mret | .sret | .ecall | .ebreak => true

/-- The position of a depth encoding in the order of R32. -/
def DepthCode.rank : DepthCode → Nat
  | .d16 => 0
  | .d32 => 1
  | .d64 => 2
  | .d128 => 3
  | .d256 => 4

/-- The constraints of R9, and no others: DEPTH_MIN is not above DEPTH_MAX; WRPTR_BITS index the array at the maximum
depth; ETEN brings MTE, with S-mode STE, and with H VSTE (R36). Any set of modes beside M is a hart's (log 42). -/
def Config.wf (cfg : Config) : Bool :=
  decide (cfg.depthMin.rank ≤ cfg.depthMax.rank)
    && decide (cfg.depthMax.rank + 4 ≤ cfg.wrptrBits.val)
    && (!cfg.implM.contains .eten
        || (cfg.implM.contains .mte && (!cfg.hasS || cfg.implM.contains .ste)
            && (!cfg.hasH || cfg.implVS.contains .ste)))

end Sys2Proof
end

