-- ==== Sys2Proof/Decode.lean ====
section
/-! DEFINITION. Decoding and encoding (spec/30_encoding.md R104 to R108). The decoder is total on any list of bytes and
rejects by name; the encoder writes an instruction's word from the same format tables. -/

namespace Sys2Proof

/-- Why a list of bytes is not an instruction of the table. -/
inductive DecodeError where
  /-- fewer bytes than the instruction's length -/
  | truncated
  /-- `inst[4:0] = 0b11111`: longer than 32 bits (R105) -/
  | longerThan32
  /-- the pattern of `c.jr` with rs1 = `x0` (R108, R270: a reserved encoding) -/
  | reservedCJr
  /-- a 16-bit word that is no row of the table -/
  | notInTable16
  /-- a 32-bit word that is no row of the table -/
  | notInTable32
deriving DecidableEq, Repr

/-- An instruction's bits, 16 or 32 of them (R105). -/
inductive Encoding where
  | half (w : BitVec 16)
  | word (w : BitVec 32)
deriving DecidableEq, Repr

/-- J-type immediate (R107). -/
def immJ (w : BitVec 32) : BitVec 21 :=
  w.extractLsb' 31 1 ++ w.extractLsb' 12 8 ++ w.extractLsb' 20 1 ++ w.extractLsb' 21 10 ++ 0#1

/-- B-type immediate (R107). -/
def immB (w : BitVec 32) : BitVec 13 :=
  w.extractLsb' 31 1 ++ w.extractLsb' 7 1 ++ w.extractLsb' 25 6 ++ w.extractLsb' 8 4 ++ 0#1

/-- CJ-type immediate (R107). -/
def immCJ (w : BitVec 16) : BitVec 12 :=
  w.extractLsb' 12 1 ++ w.extractLsb' 8 1 ++ w.extractLsb' 9 2 ++ w.extractLsb' 6 1 ++ w.extractLsb' 7 1
    ++ w.extractLsb' 2 1 ++ w.extractLsb' 11 1 ++ w.extractLsb' 3 3 ++ 0#1

/-- CB-type immediate (R107). -/
def immCB (w : BitVec 16) : BitVec 9 :=
  w.extractLsb' 12 1 ++ w.extractLsb' 5 2 ++ w.extractLsb' 2 1 ++ w.extractLsb' 10 2 ++ w.extractLsb' 3 2 ++ 0#1

/-- CB-type register, `x[8 + inst[9:7]]` (R107). -/
def regCB (w : BitVec 16) : Reg := 1#2 ++ w.extractLsb' 7 3

/-- The branches, by funct3 (R106). -/
def decodeBranch (w : BitVec 32) : Except DecodeError Instr :=
  let rs1 := w.extractLsb' 15 5
  let rs2 := w.extractLsb' 20 5
  match w.extractLsb' 12 3 with
  | 0b000#3 => .ok (.beq rs1 rs2 (immB w))
  | 0b001#3 => .ok (.bne rs1 rs2 (immB w))
  | 0b100#3 => .ok (.blt rs1 rs2 (immB w))
  | 0b101#3 => .ok (.bge rs1 rs2 (immB w))
  | 0b110#3 => .ok (.bltu rs1 rs2 (immB w))
  | 0b111#3 => .ok (.bgeu rs1 rs2 (immB w))
  | _ => .error .notInTable32

/-- The SYSTEM words: the six CSR instructions by funct3, and the four fixed words (R104, R106). -/
def decodeSystem (w : BitVec 32) : Except DecodeError Instr :=
  let rd := w.extractLsb' 7 5
  let rs1 := w.extractLsb' 15 5
  let csr := w.extractLsb' 20 12
  match w.extractLsb' 12 3 with
  | 0b001#3 => .ok (.csrrw rd csr rs1)
  | 0b010#3 => .ok (.csrrs rd csr rs1)
  | 0b011#3 => .ok (.csrrc rd csr rs1)
  | 0b101#3 => .ok (.csrrwi rd csr rs1)
  | 0b110#3 => .ok (.csrrsi rd csr rs1)
  | 0b111#3 => .ok (.csrrci rd csr rs1)
  | _ =>
    if w = 0x00000073#32 then .ok .ecall
    else if w = 0x00100073#32 then .ok .ebreak
    else if w = 0x10200073#32 then .ok .sret
    else if w = 0x30200073#32 then .ok .mret
    else .error .notInTable32

/-- A 32-bit word, by its opcode (R106). -/
def decodeWord (w : BitVec 32) : Except DecodeError Instr :=
  match w.extractLsb' 0 7 with
  | 0b1101111#7 => .ok (.jal (w.extractLsb' 7 5) (immJ w))
  | 0b1100111#7 =>
    if w.extractLsb' 12 3 = 0#3 then .ok (.jalr (w.extractLsb' 7 5) (w.extractLsb' 15 5) (w.extractLsb' 20 12))
    else .error .notInTable32
  | 0b1100011#7 => decodeBranch w
  | 0b1110011#7 => decodeSystem w
  | _ => .error .notInTable32

/-- A 16-bit word of quadrant 01: the CJ and CB formats by funct3 (R108). -/
def decodeHalf01 (w : BitVec 16) : Except DecodeError Instr :=
  match w.extractLsb' 13 3 with
  | 0b001#3 => .ok (.cjal (immCJ w))
  | 0b101#3 => .ok (.cj (immCJ w))
  | 0b110#3 => .ok (.cbeqz (regCB w) (immCB w))
  | 0b111#3 => .ok (.cbnez (regCB w) (immCB w))
  | _ => .error .notInTable16

/-- A 16-bit word of quadrant 10 with `inst[6:2] = 0`: the CR format by `inst[15:12]` (R108); rs1 = `x0` is reserved
under `c.jr` (R270) and `c.ebreak` under `c.jalr` (R271, R274). -/
def decodeHalf10 (w : BitVec 16) : Except DecodeError Instr :=
  let rs1 := w.extractLsb' 7 5
  match w.extractLsb' 12 4 with
  | 0b1000#4 => if rs1 = 0#5 then .error .reservedCJr else .ok (.cjr rs1)
  | 0b1001#4 => if rs1 = 0#5 then .ok .cebreak else .ok (.cjalr rs1)
  | _ => .error .notInTable16

/-- A 16-bit word, by its quadrant (R108). -/
def decodeHalf (w : BitVec 16) : Except DecodeError Instr :=
  match w.extractLsb' 0 2 with
  | 0b01#2 => decodeHalf01 w
  | 0b10#2 => if w.extractLsb' 2 5 = 0#5 then decodeHalf10 w else .error .notInTable16
  | _ => .error .notInTable16

/-- The instruction an encoding stands for. -/
def decodeEncoding : Encoding → Except DecodeError Instr
  | .half w => decodeHalf w
  | .word w => decodeWord w

/-- Splits the first instruction off a list of bytes: the low 16-bit parcel first, each parcel's low byte first
(R82, R105). -/
def splitEncoding : List Byte → Except DecodeError (Encoding × List Byte)
  | b0 :: b1 :: rest =>
    if b0.extractLsb' 0 2 = 0b11#2 then
      if b0.extractLsb' 2 3 = 0b111#3 then .error .longerThan32
      else
        match rest with
        | b2 :: b3 :: rest => .ok (.word (b3 ++ b2 ++ b1 ++ b0), rest)
        | _ => .error .truncated
    else .ok (.half (b1 ++ b0), rest)
  | _ => .error .truncated

/-- The decoder: the first instruction of a list of bytes and the bytes after it, or why there is none. -/
def decode (bytes : List Byte) : Except DecodeError (Instr × List Byte) :=
  match splitEncoding bytes with
  | .error e => .error e
  | .ok (enc, rest) =>
    match decodeEncoding enc with
    | .error e => .error e
    | .ok i => .ok (i, rest)

/-- SYSTEM, CSR format (R104, R106). -/
def encodeCsr (csr : CsrNum) (rs1 : BitVec 5) (funct3 : BitVec 3) (rd : Reg) : Encoding :=
  .word (csr ++ rs1 ++ funct3 ++ rd ++ 0b1110011#7)

/-- B format (R106). -/
def encodeBranch (funct3 : BitVec 3) (rs1 rs2 : Reg) (off : BitVec 13) : Encoding :=
  .word (off.extractLsb' 12 1 ++ off.extractLsb' 5 6 ++ rs2 ++ rs1 ++ funct3 ++ off.extractLsb' 1 4
    ++ off.extractLsb' 11 1 ++ 0b1100011#7)

/-- CJ format (R108). -/
def encodeCJ (funct3 : BitVec 3) (off : BitVec 12) : Encoding :=
  .half (funct3 ++ off.extractLsb' 11 1 ++ off.extractLsb' 4 1 ++ off.extractLsb' 8 2 ++ off.extractLsb' 10 1
    ++ off.extractLsb' 6 1 ++ off.extractLsb' 7 1 ++ off.extractLsb' 1 3 ++ off.extractLsb' 5 1 ++ 0b01#2)

/-- CB format (R108). -/
def encodeCB (funct3 : BitVec 3) (rs1 : Reg) (off : BitVec 9) : Encoding :=
  .half (funct3 ++ off.extractLsb' 8 1 ++ off.extractLsb' 3 2 ++ rs1.extractLsb' 0 3 ++ off.extractLsb' 6 2
    ++ off.extractLsb' 1 2 ++ off.extractLsb' 5 1 ++ 0b01#2)

/-- CR format (R108). -/
def encodeCR (funct4 : BitVec 4) (rs1 : Reg) : Encoding :=
  .half (funct4 ++ rs1 ++ 0#5 ++ 0b10#2)

/-- The word of an instruction, from the format tables of R104, R106 and R108. -/
def encodeInstr : Instr → Encoding
  | .csrrw rd csr rs1 => encodeCsr csr rs1 0b001 rd
  | .csrrs rd csr rs1 => encodeCsr csr rs1 0b010 rd
  | .csrrc rd csr rs1 => encodeCsr csr rs1 0b011 rd
  | .csrrwi rd csr uimm => encodeCsr csr uimm 0b101 rd
  | .csrrsi rd csr uimm => encodeCsr csr uimm 0b110 rd
  | .csrrci rd csr uimm => encodeCsr csr uimm 0b111 rd
  | .jal rd off =>
    .word (off.extractLsb' 20 1 ++ off.extractLsb' 1 10 ++ off.extractLsb' 11 1 ++ off.extractLsb' 12 8 ++ rd
      ++ 0b1101111#7)
  | .jalr rd rs1 imm => .word (imm ++ rs1 ++ 0b000#3 ++ rd ++ 0b1100111#7)
  | .beq rs1 rs2 off => encodeBranch 0b000 rs1 rs2 off
  | .bne rs1 rs2 off => encodeBranch 0b001 rs1 rs2 off
  | .blt rs1 rs2 off => encodeBranch 0b100 rs1 rs2 off
  | .bge rs1 rs2 off => encodeBranch 0b101 rs1 rs2 off
  | .bltu rs1 rs2 off => encodeBranch 0b110 rs1 rs2 off
  | .bgeu rs1 rs2 off => encodeBranch 0b111 rs1 rs2 off
  | .cj off => encodeCJ 0b101 off
  | .cjal off => encodeCJ 0b001 off
  | .cjr rs1 => encodeCR 0b1000 rs1
  | .cjalr rs1 => encodeCR 0b1001 rs1
  | .cbeqz rs1 off => encodeCB 0b110 rs1 off
  | .cbnez rs1 off => encodeCB 0b111 rs1 off
  | .cebreak => .half 0x9002
  | .mret => .word 0x30200073
  | .sret => .word 0x10200073
  | .ecall => .word 0x00000073
  | .ebreak => .word 0x00100073

/-- An encoding's bytes, lowest address first (R82). -/
def Encoding.bytes : Encoding → List Byte
  | .half w => [w.extractLsb' 0 8, w.extractLsb' 8 8]
  | .word w => [w.extractLsb' 0 8, w.extractLsb' 8 8, w.extractLsb' 16 8, w.extractLsb' 24 8]

/-- An encoding's bits as a word, as `xtval` shows them (R351). -/
def Encoding.bits : Encoding → Word
  | .half w => w.setWidth 64
  | .word w => w.setWidth 64

/-- The encoder: the bytes of a well-formed instruction, lowest address first. -/
def encode (i : Instr) : List Byte := (encodeInstr i).bytes

/-- An instruction's length in bytes, 2 or 4 (R105). -/
def Instr.len (i : Instr) : Nat :=
  match encodeInstr i with
  | .half _ => 2
  | .word _ => 4

/-- The four bytes of an instruction whose table bits are `w`, bits from `nbits` up being 0, lowest address first. -/
def tableBytes (nbits w : Nat) : List Byte :=
  (Encoding.word (BitVec.ofNat 32 (w % 2 ^ nbits))).bytes

/-- What the decoder reads from the table bits `w` of a row. -/
def decodeTableWord (nbits w : Nat) : Option Instr :=
  match decode (tableBytes nbits w) with
  | .ok (i, _) => some i
  | .error _ => none

end Sys2Proof
end

