-- ==== Sys2Proof/Machine/State.lean ====
section
/-! DEFINITION. The machine's state as plain data (spec/10_state.md; INVENTORY.md, State), the reasons a step can
stop, and the state after reset. -/

namespace Sys2Proof.Machine

/-- A privilege mode (R8). `S` is HS-mode when H is implemented. -/
inductive Mode where
  | M
  | S
  | U
  | VS
  | VU
  | Debug
deriving DecidableEq, Repr

/-- The level `mstatus.MPP` holds (R275, R360). -/
inductive Priv where
  | U
  | S
  | M
deriving DecidableEq, Repr

/-- One physical entry of the CTR array: `ctrsource`, `ctrtarget`, `ctrdata` (R48, R51, R53, R54). -/
structure Entry where
  src : Word
  tgt : Word
  data : Word
deriving DecidableEq, Repr

/-- The recorder's state, and nothing else is (R20). -/
structure Ctr where
  /-- `mctrcontrol` (R25) -/
  mctl : Word
  /-- `vsctrcontrol` (R39); its DEPTH bits are not stored -/
  vsctl : Word
  /-- `mctrstatus.WRPTR` (R42) -/
  wrptr : BitVec 8
  /-- `mctrstatus.WRAP` (R43) -/
  wrap : Bool
  /-- `mctrstatus.FROZEN` (R44) -/
  frozen : Bool
  /-- the array (R48): room for the 256 entries the architecture allows, of which MAXDEPTH exist (log 38) -/
  arr : Vector Entry 256
  /-- hidden `cc_count` (R60) -/
  ccCount : Nat
  /-- hidden `cc_ok` (R60) -/
  ccOk : Bool
deriving DecidableEq, Repr

/-- The fields of `mstatus` the spec names (R275, R276, R360); `sstatus` is a view of `sie`, `spie`, `spp`. -/
structure MStatus where
  mie : Bool
  mpie : Bool
  mpp : Priv
  mpv : Bool
  sie : Bool
  spie : Bool
  /-- SPP: `true` is S, `false` is U -/
  spp : Bool
  tsr : Bool
deriving DecidableEq, Repr

/-- The fields of `hstatus` the spec names (R276, R360). -/
structure HStatus where
  spv : Bool
  vtsr : Bool
deriving DecidableEq, Repr

/-- The fields of `vsstatus` the spec names (R276, R360). -/
structure VsStatus where
  sie : Bool
  spie : Bool
  /-- SPP: `true` is VS, `false` is VU -/
  spp : Bool
deriving DecidableEq, Repr

/-- The registers a trap into one mode uses: `xtvec`, `xepc`, `xcause`, `xtval` (R360). -/
structure TrapRegs where
  tvec : Word
  epc : Word
  cause : Word
  tval : Word
deriving DecidableEq, Repr

/-- What the environment does to the hart between instructions (R7, log 20). -/
inductive EnvEvent where
  /-- the hart runs its next instruction -/
  | run
  /-- one CPU cycle elapses (R283) -/
  | tick
  /-- the cycle counter stops for an implementation-specific reason (R285) -/
  | counterStop
  /-- the pending bits that `mip` shows change, by the platform or a counter overflow; no event of the recorder (R279,
  R356, log 46) -/
  | pending (bits : Word)
  /-- an interrupt is taken as an architectural trap (R356); that a cause number has 6 bits is the model's choice
  (log 45) -/
  | interrupt (cause : BitVec 6)
  /-- the instruction at the pc raises a host exception before it retires: a page fault, a trigger (R279); what `xtval`
  gets is the value given only where R351 does not say it (log 16); that a cause number has 6 bits is the model's
  choice (log 45) -/
  | exception (cause : BitVec 6) (tval : Word)
  /-- entry to Debug Mode (R219) -/
  | debugEntry
  /-- exit from Debug Mode into a mode at an address (R219) -/
  | debugExit (mode : Mode) (pc : Word)
  /-- hart reset (R380) -/
  | reset
deriving DecidableEq, Repr

/-- The machine: the recorder, the hart that hosts it, the memory its program was loaded into, and the model's own
fields `cfg`, `env` and `draws`. -/
structure State where
  /-- the implementation's parameters (R9); no step writes them -/
  cfg : Config
  /-- the recorder (R20) -/
  ctr : Ctr
  /-- the general registers (R22); the contents of slot 0 are never read -/
  regs : Vector Word 32
  /-- the program counter (R23), a number below 2^XLEN of the current mode (log 43) -/
  pc : Word
  /-- the current privilege mode (R8) -/
  mode : Mode
  mstatus : MStatus
  hstatus : HStatus
  vsstatus : VsStatus
  /-- `mtvec`, `mepc`, `mcause`, `mtval` -/
  mtrap : TrapRegs
  /-- `stvec`, `sepc`, `scause`, `stval` -/
  strap : TrapRegs
  /-- `vstvec`, `vsepc`, `vscause`, `vstval` -/
  vstrap : TrapRegs
  /-- delegation registers (R365) -/
  medeleg : Word
  mideleg : Word
  hedeleg : Word
  hideleg : Word
  /-- `mip`, the pending interrupts (R279, log 46) -/
  mip : Word
  /-- `mstateen0`, of which bits 55 and 60 are held (R63) -/
  mstateen0 : Word
  /-- `hstateen0`, of which bits 55 and 60 are held (R63, R179) -/
  hstateen0 : Word
  /-- select registers (R62) -/
  miselect : Word
  siselect : Word
  vsiselect : Word
  /-- the bytes placed in memory, by rising address; an address that is not listed has never been written (log 7) -/
  mem : List Host.Cell
  /-- the environment's pending events, next first (log 20) -/
  env : List EnvEvent
  /-- the number of the next event that may draw a free value (log 3) -/
  draws : Nat
deriving DecidableEq, Repr

/-- Why the machine stops with a fault. -/
inductive Fault where
  /-- The hart fetches from an address no byte was ever placed at. Raised by the fetch of `step`. Safe: the hardware
  would go on with whatever the memory holds. -/
  | unwrittenFetch
deriving DecidableEq, Repr

/-- Why the model gives a step no meaning. Every one of them is safe: the hardware would go on. -/
inductive Refusal where
  /-- An instruction that has no meaning yet. Raised by an arm of `exec`. -/
  | notModelled (mnemonic : String)
  /-- The fetched bytes are no instruction of the table (R5: the host's own instruction set is out of scope; R270:
  reserved). Raised by the fetch of `step`. -/
  | undecodable (why : DecodeError)
  /-- The pattern of `c.jal` with XLEN = 64 is the host's `c.addiw` (R108, R269). Raised by `c.jal`. -/
  | cAddiw
  /-- An `*ireg*` register with its select outside 0x200..0x2FF is not CTR's (R161). Raised by the CSR
  instructions. -/
  | indirectSelect
  /-- An exit from Debug Mode outside Debug Mode, or into a mode the hart does not have. Raised by the environment
  step. -/
  | impossibleEvent
deriving DecidableEq, Repr

/-- An entry of zeros, what CLR leaves (R130). -/
def Entry.zero : Entry := ⟨0, 0, 0⟩

/-- The free part of `legalize_depth` in the reset configuration: the default of decision D13, by written value. -/
def defaultDepthOther : Vector DepthCode 16 :=
  #v[.d16, .d32, .d16, .d64, .d16, .d32, .d16, .d128, .d16, .d32, .d16, .d64, .d16, .d32, .d16, .d256]

/-- Every optional control field. -/
def allCtlFields : List CtlField :=
  [.mte, .ste, .rasemu, .bpfrz, .lcofifrz, .excinh, .intrinh, .tretinh, .ntbren, .tkbrinh, .eten, .indcallinh,
    .dircallinh, .indjumpinh, .dirjumpinh, .corswapinh, .retinh, .indojmpinh, .dirojmpinh]

/-- The configuration of the reset state (log 2): the conventions of spec/95_test_vectors.md, with MXLEN = 32 so that
every row of the opcode table can run. -/
def resetConfig : Config where
  mxlen := .x32
  sxlen := .x32
  uxlen := .x32
  vsxlen := .x32
  vuxlen := .x32
  hasS := true
  hasU := true
  hasH := true
  hasSmstateen := true
  hasC := true
  depthMin := .d16
  depthMax := .d256
  depthOther := defaultDepthOther
  wrptrBits := 8
  implM := allCtlFields
  implVS := allCtlFields.tail
  hasMisp := false
  hasType := true
  hasCc := false
  cceBits := 0
  vaMode := .exact
  extTrapType := Config.openExtTrapType
  crossV := .source
  rasCc := .accumulate
  classify := []
  resetPc := 0x80000000
  tvalBits := true
  tvalPc := true

/-- The recorder after reset: all zero (log 4; the spec gives no value, R70). -/
def Ctr.reset : Ctr where
  mctl := 0
  vsctl := 0
  wrptr := 0
  wrap := false
  frozen := false
  arr := Vector.replicate 256 Entry.zero
  ccCount := 0
  ccOk := false

/-- The machine right after reset: M-mode, interrupts disabled, the implementation-defined pc and `mstateen0` = 0 are
R381; every other register is zero (logs 4 and 5). -/
def State.reset : State where
  cfg := resetConfig
  ctr := Ctr.reset
  regs := Vector.replicate 32 0
  pc := resetConfig.resetPc
  mode := .M
  mstatus := ⟨false, false, .U, false, false, false, false, false⟩
  hstatus := ⟨false, false⟩
  vsstatus := ⟨false, false, false⟩
  mtrap := ⟨0, 0, 0, 0⟩
  strap := ⟨0, 0, 0, 0⟩
  vstrap := ⟨0, 0, 0, 0⟩
  medeleg := 0
  mideleg := 0
  hedeleg := 0
  hideleg := 0
  mip := 0
  mstateen0 := 0
  hstateen0 := 0
  miselect := 0
  siselect := 0
  vsiselect := 0
  mem := []
  env := []
  draws := 0

end Sys2Proof.Machine
end

