-- ==== Sys2Proof/Machine/Params.lean ====
section
/-! DEFINITION. What the parameters of spec/00_scope.md R9 mean: widths, depths, implemented-bit masks, address
legalisation and the cycle-count code. -/

namespace Sys2Proof.Machine

/-- XLEN in bits. -/
def xbits : Xlen → Nat
  | .x32 => 32
  | .x64 => 64

/-- A width no greater than MXLEN (R9). -/
def atMost (mxlen x : Xlen) : Xlen :=
  match mxlen with
  | .x32 => .x32
  | .x64 => x

/-- XLEN(mode) (R9); Debug Mode accesses as M-mode does (D16). -/
def xlenOf (cfg : Config) : Mode → Xlen
  | .M => cfg.mxlen
  | .S => atMost cfg.mxlen cfg.sxlen
  | .U => atMost cfg.mxlen cfg.uxlen
  | .VS => atMost cfg.mxlen cfg.vsxlen
  | .VU => atMost cfg.mxlen cfg.vuxlen
  | .Debug => cfg.mxlen

/-- The low XLEN bits of a value, zero-extended (R11, R392). -/
def trunc (x : Xlen) (v : Word) : Word :=
  match x with
  | .x32 => (v.setWidth 32).setWidth 64
  | .x64 => v

/-- The bits above the low 32 of `hi`, joined to the low 32 of `lo`. -/
def joinHalves (hi lo : Word) : Word := hi.extractLsb' 32 32 ++ lo.extractLsb' 0 32

/-- The modes a hart has (R9, R367). -/
def hasMode (cfg : Config) : Mode → Bool
  | .M => true
  | .S => cfg.hasS
  | .U => cfg.hasU
  | .VS => cfg.hasH
  | .VU => cfg.hasH
  | .Debug => true

/-- V(mode) (R8). -/
def isV : Mode → Bool
  | .VS => true
  | .VU => true
  | _ => false

/-- A depth encoding (R32). -/
def depthBits : DepthCode → BitVec 4
  | .d16 => 0b0000
  | .d32 => 0b0001
  | .d64 => 0b0011
  | .d128 => 0b0111
  | .d256 => 0b1111

/-- The defined encodings (R32). -/
def depthOfBits (v : BitVec 4) : Option DepthCode :=
  if v = 0b0000 then some .d16
  else if v = 0b0001 then some .d32
  else if v = 0b0011 then some .d64
  else if v = 0b0111 then some .d128
  else if v = 0b1111 then some .d256
  else none

/-- A supported depth: between DEPTH_MIN and DEPTH_MAX (R9). -/
def depthSupported (cfg : Config) (d : DepthCode) : Bool :=
  decide (cfg.depthMin.rank ≤ d.rank) && decide (d.rank ≤ cfg.depthMax.rank)

/-- The nearest supported depth. -/
def clampDepth (cfg : Config) (d : DepthCode) : DepthCode :=
  if d.rank < cfg.depthMin.rank then cfg.depthMin
  else if cfg.depthMax.rank < d.rank then cfg.depthMax
  else d

/-- `legalize_depth` (R9, R340): 0b0000 gives DEPTH_MIN, 0b1111 gives DEPTH_MAX, a supported encoding itself, and
any other value a supported depth of the implementation's choice (log 25). -/
def legalizeDepth (cfg : Config) (v : BitVec 4) : DepthCode :=
  if v = 0b0000 then cfg.depthMin
  else if v = 0b1111 then cfg.depthMax
  else
    match depthOfBits v with
    | some d => if depthSupported cfg d then d else clampDepth cfg (cfg.depthOther.get v.toFin)
    | none => clampDepth cfg (cfg.depthOther.get v.toFin)

/-- MAXDEPTH (R9). -/
def maxDepth (cfg : Config) : Nat := 16 * ((depthBits cfg.depthMax).toNat + 1)

/-- The position of an optional control field (R25). -/
def fieldPos : CtlField → Nat
  | .mte => 8
  | .ste => 9
  | .rasemu => 10
  | .bpfrz => 11
  | .lcofifrz => 12
  | .excinh => 33
  | .intrinh => 34
  | .tretinh => 35
  | .ntbren => 36
  | .tkbrinh => 37
  | .eten => 38
  | .indcallinh => 40
  | .dircallinh => 41
  | .indjumpinh => 42
  | .dirjumpinh => 43
  | .corswapinh => 44
  | .retinh => 45
  | .indojmpinh => 46
  | .dirojmpinh => 47

/-- The word with one bit set where the condition holds. -/
def bitIf (c : Bool) (n : Nat) : Word := if c then BitVec.twoPow 64 n else 0

/-- The mask of a set of optional fields. -/
def fieldMask : List CtlField → Word
  | [] => 0
  | f :: fs => BitVec.twoPow 64 (fieldPos f) ||| fieldMask fs

/-- `WM`, the implemented one-bit fields of `mctrcontrol` (R121). -/
def maskM (cfg : Config) : Word :=
  1 ||| bitIf cfg.hasS 1 ||| bitIf cfg.hasU 2 ||| fieldMask cfg.implM

/-- `WV`, the implemented one-bit fields of `vsctrcontrol`: never bits 0 and 8 (R121). -/
def maskV (cfg : Config) : Word :=
  if cfg.hasH then 6 ||| (fieldMask cfg.implVS &&& ~~~(0x100 : Word)) else 0

/-- The bits of MXLEN-wide registers that exist. -/
def mxMask (cfg : Config) : Word := trunc cfg.mxlen (BitVec.allOnes 64)

/-- The implemented bits of `ctrsource`: all (R51). -/
def srcMask (cfg : Config) : Word := mxMask cfg

/-- The implemented bits of `ctrtarget`: MISP only when HAS_MISP (R53). -/
def tgtMask (cfg : Config) : Word := mxMask cfg &&& (if cfg.hasMisp then BitVec.allOnes 64 else ~~~(1 : Word))

/-- The low CCE_BITS bits of CCE (R56). -/
def cceMask (cfg : Config) : BitVec 4 := BitVec.ofNat 4 (2 ^ cfg.cceBits.val - 1)

/-- The implemented bits of `ctrdata` (R54 to R57): CC and CCV when HAS_CC, TYPE when HAS_TYPE. -/
def dataMask (cfg : Config) : Word :=
  (if cfg.hasCc then (0#32 ++ cceMask cfg ++ 0xFFF#12 ++ 1#1 ++ 0#15 : Word) else 0)
    ||| (if cfg.hasType then 0xF else 0)

/-- A valid PC field: address 0, or what the host's translation mode calls valid (R52, log 24). -/
def vaOk (a : BitVec 63) : Bool := a == 0 || Config.vaValid a

/-- `legalize_va` on a PC field of `w` bits (R52): the identity on valid addresses; an invalid one gives an invalid
one. -/
def legalizeVa (cfg : Config) (w : Nat) (a : BitVec 63) : BitVec 63 :=
  match cfg.vaMode with
  | .exact => a
  | .converting =>
    if vaOk a then a
    else if (Config.vaConvert w a).toNat < 2 ^ w && !vaOk (Config.vaConvert w a) then Config.vaConvert w a
    else a

/-- The PC field recorded for an address of a mode: bits XLEN-1:1, legalised (R23, R52). -/
def pcField (cfg : Config) (x : Xlen) (pc : Word) : BitVec 63 :=
  legalizeVa cfg (xbits x - 1) ((trunc x pc).extractLsb' 1 63)

/-- `cc_decode` (R281). -/
def ccDecode (cce ccm : Nat) : Nat := if cce = 0 then ccm else (4096 + ccm) <<< (cce - 1)

/-- The exponent and mantissa of a count before saturation (R282). -/
def ccSplit (c : Nat) : Nat × Nat :=
  if c < 4096 then (0, c) else (Nat.log2 c - 11, (c >>> (Nat.log2 c - 12)) % 4096)

/-- `cc_encode` (R282), with EMAX the all-ones exponent of the implemented bits. -/
def ccEncode (cfg : Config) (c : Nat) : BitVec 16 :=
  if 2 ^ cfg.cceBits.val - 1 < (ccSplit c).1 then BitVec.ofNat 16 ((2 ^ cfg.cceBits.val - 1) <<< 12 ||| 0xFFF)
  else BitVec.ofNat 16 ((ccSplit c).1 <<< 12 ||| (ccSplit c).2)

end Sys2Proof.Machine
end

