-- ==== Sys2Proof/Machine/Flags.lean ====
section
/-! DEFINITION. The status and control bits of the recorder: enables, filters, opt-ins, DEPTH and the write pointer
(spec/10_state.md R25 to R44; spec/43_recording.md R191; spec/45_transfer_type_filtering.md R232, R234, R256). -/

namespace Sys2Proof.Machine

/-- `type_code(kind)`, the value of `ctrdata.TYPE` (R55, R232). -/
def typeCode : Kind → BitVec 4
  | .ntbr => 0b0100
  | .tkbr => 0b0101
  | .indcall => 0b1000
  | .dircall => 0b1001
  | .indjump => 0b1010
  | .dirjump => 0b1011
  | .corswap => 0b1100
  | .ret => 0b1101
  | .indojmp => 0b1110
  | .dirojmp => 0b1111

/-- TYPE of a trap record that is no external trap (R214). -/
def trapType (isInterrupt : Bool) : BitVec 4 := if isInterrupt then 0b0010 else 0b0001

/-- TYPE of a trap-return record (R216). -/
def returnType : BitVec 4 := 0b0011

/-- An optional field of a control register (R25, R39). -/
def ctlBit (c : Word) (f : CtlField) : Bool := c.getLsbD (fieldPos f)

/-- `inhibited(c, kind)` (R234): not-taken branches are opt-in, every other kind opt-out (R231). -/
def inhibited (c : Word) : Kind → Bool
  | .ntbr => !ctlBit c .ntbren
  | .tkbr => ctlBit c .tkbrinh
  | .indcall => ctlBit c .indcallinh
  | .dircall => ctlBit c .dircallinh
  | .indjump => ctlBit c .indjumpinh
  | .dirjump => ctlBit c .dirjumpinh
  | .corswap => ctlBit c .corswapinh
  | .ret => ctlBit c .retinh
  | .indojmp => ctlBit c .indojmpinh
  | .dirojmp => ctlBit c .dirojmpinh

/-- `ctl(mode)`: the active control register (R11, R230). -/
def Ctr.ctl (c : Ctr) (m : Mode) : Word := if isV m then c.vsctl else c.mctl

/-- `enabled(mode)`: each bit from the register that holds it (R191). -/
def Ctr.enabled (c : Ctr) : Mode → Bool
  | .M => c.mctl.getLsbD 0
  | .S => c.mctl.getLsbD 1
  | .U => c.mctl.getLsbD 2
  | .VS => c.vsctl.getLsbD 1
  | .VU => c.vsctl.getLsbD 2
  | .Debug => false

/-- `cfg(sm, tm)`: the register that configures a trap or trap return (R215). -/
def Ctr.cfgOf (cfg : Config) (c : Ctr) (sm tm : Mode) : Word :=
  match cfg.crossV with
  | .source => c.ctl sm
  | .target => c.ctl tm

/-- `xTE(tm)`: the opt-in of a trap's target mode (R256); modes that are never targets have none (R218). -/
def Ctr.xte (c : Ctr) : Mode → Bool
  | .M => ctlBit c.mctl .mte
  | .S => ctlBit c.mctl .ste
  | .VS => ctlBit c.vsctl .ste
  | .U => false
  | .VU => false
  | .Debug => false

/-- DEPTH of a control register (R25). -/
def depthField (w : Word) : BitVec 4 := w.extractLsb' 16 4

/-- A control register with another DEPTH. -/
def setDepthField (w : Word) (d : BitVec 4) : Word := w.extractLsb' 20 44 ++ d ++ w.extractLsb' 0 16

/-- The current depth, 16 * (DEPTH + 1) (R33). -/
def Ctr.depth (c : Ctr) : Nat := 16 * ((depthField c.mctl).toNat + 1)

/-- The depth is 16 to 256, so every index below it names a slot of the array. -/
theorem Ctr.mod_depth_lt (c : Ctr) (n : Nat) : n % c.depth < 256 := by
  have h : (depthField c.mctl).toNat < 16 := (depthField c.mctl).isLt
  have := Nat.mod_lt n (show 0 < c.depth by unfold Ctr.depth; omega)
  unfold Ctr.depth at *
  omega

/-- A number reduced modulo the depth, as a physical entry (R392). -/
def Ctr.slot (c : Ctr) (n : Nat) : Fin 256 := ⟨n % c.depth, c.mod_depth_lt n⟩

/-- The effective write pointer `wp` (R42). -/
def Ctr.wp (c : Ctr) : Fin 256 := c.slot c.wrptr.toNat

/-- `phys(i) = (wp - 1 - i) mod depth` for a logical entry below the depth (R151): with `i < depth` the sum
`wp + depth - 1 - i` is that number before the remainder. -/
def Ctr.phys (c : Ctr) (i : Nat) : Fin 256 := c.slot (c.wp.val + c.depth - 1 - i)

/-- `counting(cur)` (R280). -/
def Ctr.counting (c : Ctr) (cur : Mode) : Bool := c.enabled cur && !c.frozen

end Sys2Proof.Machine
end

