-- ==== Sys2Proof/Machine/Recorder.lean ====
section
/-! DEFINITION. The recorder: what each event of the hart does to its state (spec/43_recording.md to
spec/48_freeze.md, and the CLR command and depth change of spec/40_csr_access.md R130, R131). These are functions of
the recorder's state alone (R6); a free value is an argument `ev`, the number of the event that draws it (log 3). -/

namespace Sys2Proof.Machine

/-- The k-th free value of an event. -/
def draw (ev k : Nat) : Word := Config.draw ev k

/-- The misprediction bit of an event (R61, log 23). -/
def drawMisp (ev : Nat) : Bool := (draw ev 0).getLsbD 0

/-- `cc_valid_now()` (R287, R306); `ras` says that RAS emulation mode governs the record. -/
def Ctr.ccValidNow (cfg : Config) (c : Ctr) (ras : Bool) : Bool :=
  c.ccOk && !(ras && cfg.rasCc == .ccv0)

/-- `ctrdata` of a record (R54, R193). -/
def Ctr.recordData (cfg : Config) (c : Ctr) (ras : Bool) (type : BitVec 4) : Word :=
  (0#32 ++ (if cfg.hasCc then ccEncode cfg c.ccCount else 0)
    ++ BitVec.ofBool (cfg.hasCc && c.ccValidNow cfg ras) ++ 0#11 ++ (if cfg.hasType then type else 0) : Word)

/-- `make_record` (R193). The two PCs come as PC fields: `pcField` of an address, or 0 for the PC that a partial
record hides (log 28). -/
def Ctr.makeRecord (cfg : Config) (c : Ctr) (ras : Bool) (type : BitVec 4) (s t : BitVec 63) (misp : Bool) : Entry where
  src := s ++ 1#1
  tgt := t ++ BitVec.ofBool (misp && cfg.hasMisp)
  data := c.recordData cfg ras type

/-- The hidden counter restarts after a record (R194, R286). -/
def Ctr.restartCount (cfg : Config) (c : Ctr) : Ctr :=
  { c with ccCount := if cfg.hasCc then 0 else c.ccCount, ccOk := if cfg.hasCc then true else c.ccOk }

/-- `push` (R194). -/
def Ctr.push (cfg : Config) (c : Ctr) (e : Entry) : Ctr :=
  Ctr.restartCount cfg
    { c with
      arr := c.arr.set c.wp e
      wrap := c.wrap || c.wp.val == c.depth - 1
      wrptr := BitVec.ofNat 8 ((c.wp.val + 1) % c.depth) }

/-- `ras_cc_on_pop` (R306): with `accumulate` the popped entry's count is added, and the sum is valid only if the
popped count was. -/
def Ctr.rasCcOnPop (cfg : Config) (c : Ctr) (p : Fin 256) : Ctr :=
  if cfg.hasCc && cfg.rasCc == .accumulate then
    { c with
      ccCount := c.ccCount
        + ccDecode ((c.arr.get p).data.extractLsb' 28 4).toNat ((c.arr.get p).data.extractLsb' 16 12).toNat
      ccOk := c.ccOk && (c.arr.get p).data.getLsbD 15 && (c.arr.get p).src.getLsbD 0 }
  else c

/-- An entry with V = 0 and every other bit kept (R302). -/
def Entry.invalidate (e : Entry) : Entry := { e with src := e.src &&& ~~~(1 : Word) }

/-- `ras_pop` (R302). -/
def Ctr.rasPop (cfg : Config) (c : Ctr) : Ctr :=
  { c.rasCcOnPop cfg (c.phys 0) with
    arr := c.arr.set (c.phys 0) (c.arr.get (c.phys 0)).invalidate
    wrap := c.wrap && c.wp.val != 0
    wrptr := BitVec.ofNat 8 (c.phys 0).val }

/-- `ras_swap` (R303). -/
def Ctr.rasSwap (cfg : Config) (c : Ctr) (s t : BitVec 63) (misp : Bool) : Ctr :=
  Ctr.restartCount cfg
    { c with arr := c.arr.set (c.phys 0) ((c.rasCcOnPop cfg (c.phys 0)).makeRecord cfg true 0b1100 s t misp) }

/-- `ras_step` (R301). -/
def Ctr.rasStep (cfg : Config) (c : Ctr) (k : Kind) (s t : BitVec 63) (misp : Bool) : Ctr :=
  match k with
  | .indcall => c.push cfg (c.makeRecord cfg true (typeCode .indcall) s t misp)
  | .dircall => c.push cfg (c.makeRecord cfg true (typeCode .dircall) s t misp)
  | .ret => c.rasPop cfg
  | .corswap => c.rasSwap cfg s t misp
  | .ntbr => c
  | .tkbr => c
  | .indjump => c
  | .dirjump => c
  | .indojmp => c
  | .dirojmp => c

/-- `on_Retire` (R199). -/
def Ctr.onRetire (cfg : Config) (c : Ctr) (k : Kind) (m : Mode) (pc target : Word) (misp : Bool) : Ctr :=
  let s := pcField cfg (xlenOf cfg m) pc
  let t := pcField cfg (xlenOf cfg m) target
  if m = .Debug then c
  else if !c.enabled m then c
  else if c.frozen then c
  else if ctlBit (c.ctl m) .rasemu then c.rasStep cfg k s t misp
  else if inhibited (c.ctl m) k then c
  else c.push cfg (c.makeRecord cfg false (typeCode k) s t misp)

/-- The interrupt cause number of the local counter overflow interrupt (R322, D23). -/
def lcofiCause : BitVec 6 := 13

/-- The breakpoint exception's cause (R323). -/
def breakpointCause : BitVec 6 := 3

/-- The traps that freeze (R322, R323). -/
def freezes (c : Word) (isInterrupt : Bool) (cause : BitVec 6) : Bool :=
  if isInterrupt then cause == lcofiCause && ctlBit c .lcofifrz else cause == breakpointCause && ctlBit c .bpfrz

/-- The mode table of a trap that neither freezes nor is filtered out by FROZEN or RASEMU (R211, R212). -/
def Ctr.recordTrap (cfg : Config) (c : Ctr) (isInterrupt : Bool) (sm tm : Mode) (epc handler : Word)
    (misp : Bool) : Ctr :=
  let g := c.cfgOf cfg sm tm
  let s := pcField cfg (xlenOf cfg sm) epc
  let t := pcField cfg (xlenOf cfg tm) handler
  let inh := if isInterrupt then ctlBit g .intrinh else ctlBit g .excinh
  if c.enabled sm then
    if c.enabled tm then
      if inh then c else c.push cfg (c.makeRecord cfg false (trapType isInterrupt) s t misp)
    else if ctlBit g .eten && c.xte tm then c.push cfg (c.makeRecord cfg false cfg.extTrapType s 0 misp)
    else c
  else if c.enabled tm then
    if inh then c else c.push cfg (c.makeRecord cfg false (trapType isInterrupt) 0 t misp)
  else c

/-- `on_Trap` (R212): Debug Mode, freeze causes, FROZEN, RASEMU, then the mode table (R325, R359). -/
def Ctr.onTrap (cfg : Config) (c : Ctr) (isInterrupt : Bool) (cause : BitVec 6) (sm tm : Mode) (epc handler : Word)
    (misp : Bool) : Ctr :=
  if sm = .Debug ∨ tm = .Debug then c
  else if freezes (c.cfgOf cfg sm tm) isInterrupt cause then { c with frozen := true }
  else if c.frozen then c
  else if ctlBit (c.cfgOf cfg sm tm) .rasemu then c
  else c.recordTrap cfg isInterrupt sm tm epc handler misp

/-- `on_TrapReturn` (R216). -/
def Ctr.onTrapReturn (cfg : Config) (c : Ctr) (sm tm : Mode) (pc target : Word) (misp : Bool) : Ctr :=
  let s := pcField cfg (xlenOf cfg sm) pc
  let t := if c.enabled tm then pcField cfg (xlenOf cfg tm) target else 0
  if sm = .Debug ∨ tm = .Debug then c
  else if c.frozen then c
  else if !c.enabled sm then c
  else if ctlBit (c.cfgOf cfg sm tm) .rasemu then c
  else if ctlBit (c.cfgOf cfg sm tm) .tretinh then c
  else c.push cfg (c.makeRecord cfg false returnType s t misp)

/-- What R284 applies at the end of every event, `cur` being the mode the hart is in after it. -/
def Ctr.settle (cfg : Config) (c : Ctr) (cur : Mode) : Ctr :=
  if cfg.hasCc && !c.counting cur then { c with ccOk := false } else c

/-- `on_Tick` (R283). -/
def Ctr.onTick (cfg : Config) (c : Ctr) (cur : Mode) : Ctr :=
  if cfg.hasCc then
    if c.counting cur then { c with ccCount := c.ccCount + 1 } else { c with ccOk := false }
  else c

/-- `CounterStop` (R285). -/
def Ctr.onCounterStop (cfg : Config) (c : Ctr) : Ctr := if cfg.hasCc then { c with ccOk := false } else c

/-- `ctr_clear` (R130): every implemented entry and `mctrstatus` become 0; the hidden counter is drawn (D21). -/
def Ctr.clear (cfg : Config) (ev : Nat) (c : Ctr) : Ctr :=
  { c with
    arr := Vector.replicate 256 Entry.zero
    wrptr := 0
    wrap := false
    frozen := false
    ccCount := if cfg.hasCc then Config.drawNat ev else c.ccCount
    ccOk := if cfg.hasCc then (draw ev 1).getLsbD 0 else c.ccOk }

/-- A drawn entry register triple, within the invariants of R71. -/
def drawEntry (cfg : Config) (ev p : Nat) : Entry where
  src := draw ev (16 + 3 * p) &&& srcMask cfg
  tgt := draw ev (17 + 3 * p) &&& tgtMask cfg
  data := draw ev (18 + 3 * p) &&& dataMask cfg

/-- The array with every implemented entry drawn (R131, R380). -/
def drawArray (cfg : Config) (ev : Nat) : Vector Entry 256 :=
  Vector.ofFn fun p => if p.val < maxDepth cfg then drawEntry cfg ev p.val else Entry.zero

/-- `depth_change` (R131): every implemented entry is drawn, `mctrstatus` keeps its value. -/
def Ctr.depthChange (cfg : Config) (ev : Nat) (c : Ctr) : Ctr := { c with arr := drawArray cfg ev }

/-- The recorder after the Reset event (R380): every piece drawn, within the invariants of R71. -/
def drawCtr (cfg : Config) (ev : Nat) (c : Ctr) : Ctr where
  mctl := setDepthField (draw ev 1 &&& maskM cfg) (depthBits (legalizeDepth cfg ((draw ev 2).extractLsb' 0 4)))
  vsctl := draw ev 3 &&& maskV cfg
  wrptr := (draw ev 4).extractLsb' 0 8 &&& BitVec.ofNat 8 (2 ^ cfg.wrptrBits.val - 1)
  wrap := (draw ev 5).getLsbD 0
  frozen := (draw ev 6).getLsbD 0
  arr := drawArray cfg ev
  ccCount := if cfg.hasCc then Config.drawNat ev else c.ccCount
  ccOk := if cfg.hasCc then (draw ev 7).getLsbD 0 else c.ccOk

end Sys2Proof.Machine
end

