-- ==== Sys2Proof/Machine/Operands.lean ====
section
/-! DEFINITION. Operands of the host instructions: register reads, immediates, jump and branch targets, branch
conditions, and the transfer kind of an instruction (spec/00_scope.md R9, R11; spec/30_encoding.md R107, R110;
spec/45_transfer_type_filtering.md R233, R260 to R273). -/

namespace Sys2Proof.Machine

/-- The XLEN of the current mode. -/
def State.x (s : State) : Xlen := xlenOf s.cfg s.mode

/-- `x[r]`: XLEN bits; `x[0]` is 0 (R11, R22). -/
def State.reg (s : State) (r : Reg) : Word := if r = 0 then 0 else trunc s.x (s.regs.get r.toFin)

/-- A CSR immediate, zero-extended (R107). -/
def csrImm (uimm : BitVec 5) : Word := uimm.setWidth 64

/-- The pc plus a sign-extended offset, modulo 2^XLEN (R107, R260, R392). -/
def State.pcPlus (s : State) {n : Nat} (off : BitVec n) : Word := trunc s.x (s.pc + off.signExtend 64)

/-- The address after an instruction of `len` bytes, modulo 2^XLEN (R392). -/
def State.pcNext (s : State) (len : Nat) : Word := trunc s.x (s.pc + BitVec.ofNat 64 len)

/-- An address without its bit 0. -/
def evenAddr (a : Word) : Word := a &&& ~~~(1 : Word)

/-- The target of `jalr` (R261). -/
def State.jalrTarget (s : State) (rs1 : Reg) (imm : BitVec 12) : Word :=
  evenAddr (trunc s.x (s.reg rs1 + imm.signExtend 64))

/-- A jump target the hart cannot take: without C, one that is no multiple of 4 (R260; section 4 of
spec/45_transfer_type_filtering.md). -/
def State.misaligned (s : State) (target : Word) : Bool := !s.cfg.hasC && target.extractLsb' 0 2 != 0

/-- `<s` on XLEN-bit numbers (R264). -/
def ltSigned (x : Xlen) (a b : Word) : Bool :=
  match x with
  | .x32 => (a.setWidth 32).slt (b.setWidth 32)
  | .x64 => a.slt b

/-- A link register, `x1` or `x5` (R233). -/
def isLink (r : Reg) : Bool := r == 1 || r == 5

/-- CLASSIFY (R9, R233) of a retired instruction, and whether it jumped: the parameter, and `table`, the default table's
kind, where the parameter says nothing else (log 31). -/
def kindOf (cfg : Config) (i : Instr) (jumped : Bool) (table : Kind) : Kind :=
  (cfg.classify.lookup (i, jumped)).getD table

/-- The default table's kind of a `jal` (R233). -/
def jalKind (rd : Reg) : Kind :=
  if rd = 0 then .dirjump else if isLink rd then .dircall else .dirojmp

/-- The default table's kind of a `jalr` (R233), from its register numbers alone. -/
def jalrKind (rd rs1 : Reg) : Kind :=
  if isLink rd then
    if isLink rs1 then (if rd = rs1 then .indcall else .corswap) else .indcall
  else if isLink rs1 then .ret
  else if rd = 0 then .indjump
  else .indojmp

/-- The kind of a `jal`, and of a compressed instruction that expands to it. -/
def kindOfJal (cfg : Config) (rd : Reg) (off : BitVec 21) : Kind := kindOf cfg (.jal rd off) true (jalKind rd)

/-- The kind of a `jalr`, and of a compressed instruction that expands to it. -/
def kindOfJalr (cfg : Config) (rd rs1 : Reg) (imm : BitVec 12) : Kind :=
  kindOf cfg (.jalr rd rs1 imm) true (jalrKind rd rs1)

/-- The kind of a conditional branch, the 32-bit instruction `i`, taken or not. -/
def kindOfBranch (cfg : Config) (i : Instr) (taken : Bool) : Kind := kindOf cfg i taken (if taken then .tkbr else .ntbr)

end Sys2Proof.Machine
end

