-- ==== Sys2Proof/Machine/Ops.lean ====
section
/-! DEFINITION. The shared operations: bytes of memory, register writes, a retired transfer, TAKING A TRAP
(spec/60_exceptions.md R360) and RETURNING FROM ONE (R361). -/

namespace Sys2Proof.Machine

/-- What a step answers. -/
abbrev Out := Host.Outcome State Fault Refusal

/-! ### Memory -/

/-- The byte at an address; none where nothing was ever written (log 7). -/
def memRead : List Host.Cell → Nat → Option Byte
  | [], _ => none
  | (b, v) :: rest, a => if a = b then some v else memRead rest a

/-- Places a byte, keeping addresses strictly rising. -/
def memWrite : List Host.Cell → Nat → Byte → List Host.Cell
  | [], a, v => [(a, v)]
  | (b, w) :: rest, a, v =>
    if a < b then (a, v) :: (b, w) :: rest
    else if a = b then (a, v) :: rest
    else (b, w) :: memWrite rest a v

/-- The canonical form: addresses strictly rising, each written once. -/
def Memory.wf : List Host.Cell → Bool
  | [] => true
  | [_] => true
  | (a, _) :: (b, v) :: rest => decide (a < b) && Memory.wf ((b, v) :: rest)

/-- The address `k` bytes after the pc, modulo 2^XLEN. -/
def State.pcAddr (s : State) (k : Nat) : Nat := (s.pcNext k).toNat

/-- Places bytes from the k-th byte after the pc on. -/
def State.placeBytes (s : State) (k : Nat) : List Byte → State
  | [] => s
  | b :: bs => State.placeBytes { s with mem := memWrite s.mem (s.pcAddr k) b } (k + 1) bs

/-! ### Registers and free values -/

/-- An XLEN-bit value written to an MXLEN-bit register: where XLEN is below MXLEN the bits above are free
(log 12). -/
def State.widen (s : State) (item : Nat) (v : Word) : Word :=
  if s.x = .x32 ∧ s.cfg.mxlen = .x64 then joinHalves (draw s.draws item) v else v

/-- `x[r] <- v`; a write of `x0` is discarded (R11). -/
def State.setReg (s : State) (r : Reg) (v : Word) : State :=
  { s with regs := if r = 0 then s.regs else s.regs.set r.toFin (s.widen 8 v) }

/-- The event is over: later events draw other values. -/
def State.bump (s : State) : State := { s with draws := s.draws + 1 }

/-! ### A retired transfer -/

/-- A control transfer retires: the recorder sees `Retire` (R199, then R284) and execution goes on at the target. -/
def State.retire (s : State) (k : Kind) (target : Word) : State :=
  { s with
    ctr := (s.ctr.onRetire s.cfg k s.mode s.pc target (drawMisp s.draws)).settle s.cfg s.mode
    pc := target
    draws := s.draws + 1 }

/-! ### Taking a trap -/

/-- An exception an instruction raises, with the value `xtval` receives (R351). That a cause number has 6 bits is the
model's choice (log 45). -/
structure Exc where
  cause : BitVec 6
  tval : Word
deriving DecidableEq, Repr

/-- The illegal instruction exception (R351). -/
def excIllegal (s : State) (i : Instr) : Exc := ⟨2, if s.cfg.tvalBits then (encodeInstr i).bits else 0⟩

/-- The virtual instruction exception (R351). -/
def excVirtual (s : State) (i : Instr) : Exc := ⟨22, if s.cfg.tvalBits then (encodeInstr i).bits else 0⟩

/-- The breakpoint exception (R351). -/
def excBreakpoint (s : State) : Exc := ⟨breakpointCause, if s.cfg.tvalPc then s.pc else 0⟩

/-- The instruction-address-misaligned exception (R351). -/
def excMisaligned (target : Word) : Exc := ⟨0, target⟩

/-- The cause of an environment call from a mode (R277, R351); Debug Mode calls as M-mode does (log 21). -/
def ecallCause : Mode → BitVec 6
  | .U => 8
  | .VU => 8
  | .S => 9
  | .VS => 10
  | .M => 11
  | .Debug => 11

/-- The mode a trap enters (R218, R365; log 17): M unless delegated, then S, and from V=1 on to VS. A trap in Debug
Mode goes where one in M-mode does (log 21). -/
def State.trapTarget (s : State) (isInterrupt : Bool) (cause : BitVec 6) : Mode :=
  let toS := (if isInterrupt then s.mideleg else s.medeleg).getLsbD cause.toNat
  let toVS := (if isInterrupt then s.hideleg else s.hedeleg).getLsbD cause.toNat
  if s.mode = .M ∨ s.mode = .Debug ∨ !s.cfg.hasS ∨ !toS then .M
  else if isV s.mode && s.cfg.hasH && toVS then .VS
  else .S

/-- The trap registers of a trap's target mode. -/
def State.trapRegs (s : State) : Mode → TrapRegs
  | .M => s.mtrap
  | .VS => s.vstrap
  | _ => s.strap

/-- The handler address: the base of `xtvec`, or for a vectored interrupt base + 4 * cause (R360). -/
def handlerAddr (x : Xlen) (tvec : Word) (isInterrupt : Bool) (cause : BitVec 6) : Word :=
  let base := tvec &&& ~~~(3 : Word)
  trunc x (if isInterrupt && tvec.getLsbD 0 then base + 4 * cause.setWidth 64 else base)

/-- The value of `xcause`: the interrupt bit and the code (R351, R360). That the interrupt bit is the top one of the
target mode's XLEN bits, and that the code stands in the low ones, is the family's and not in the spec (log 47). -/
def causeValue (x : Xlen) (isInterrupt : Bool) (cause : BitVec 6) : Word :=
  bitIf isInterrupt (xbits x - 1) ||| cause.setWidth 64

/-- The level `mstatus.MPP` saves for a mode; Debug Mode counts as M-mode (log 21). -/
def privOf : Mode → Priv
  | .M => .M
  | .S => .S
  | .VS => .S
  | .U => .U
  | .VU => .U
  | .Debug => .M

/-- The registers a trap into `tm` saves into: `xepc`, `xcause`, `xtval`; `xPP`, `xPIE` and `xIE`; MPV or SPV
(R360). `xepc` gets the whole pc, also where it is above 2^XLEN of `tm` (log 48). -/
def State.saveTrap (s : State) (isInterrupt : Bool) (e : Exc) (tm : Mode) : State :=
  let saved (r : TrapRegs) : TrapRegs := ⟨r.tvec, s.pc, causeValue (xlenOf s.cfg tm) isInterrupt e.cause, e.tval⟩
  match tm with
  | .M =>
    { s with
      mtrap := saved s.mtrap
      mstatus := { s.mstatus with
        mpp := privOf s.mode, mpv := isV s.mode, mpie := s.mstatus.mie, mie := false } }
  | .VS =>
    { s with
      vstrap := saved s.vstrap
      vsstatus := { spp := s.mode == .VS, spie := s.vsstatus.sie, sie := false } }
  | _ =>
    { s with
      strap := saved s.strap
      mstatus := { s.mstatus with spp := privOf s.mode == .S, spie := s.mstatus.sie, sie := false }
      hstatus := { s.hstatus with spv := isV s.mode } }

/-- The hart enters mode `tm` at its handler, after the registers are saved, and the recorder sees `Trap` (R360,
R212, then R284). -/
def State.trapInto (s : State) (isInterrupt : Bool) (e : Exc) (tm : Mode) : State :=
  let handler := handlerAddr (xlenOf s.cfg tm) (s.trapRegs tm).tvec isInterrupt e.cause
  { s.saveTrap isInterrupt e tm with
    ctr := (s.ctr.onTrap s.cfg isInterrupt e.cause s.mode tm s.pc handler (drawMisp s.draws)).settle s.cfg tm
    mode := tm
    pc := handler
    draws := s.draws + 1 }

/-- TAKING A TRAP (R360). The target mode is the delegation registers' (R365). A trap in Debug Mode is taken like one
in M-mode (log 21), and the recorder ignores it (R219). -/
def State.takeTrap (s : State) (isInterrupt : Bool) (e : Exc) : Out :=
  .next (s.trapInto isInterrupt e (s.trapTarget isInterrupt e.cause))

/-- Raises an exception of the current instruction (R11 `raise`): the trap is the whole effect (R200, R350). -/
def State.raise (s : State) (e : Exc) : Out := s.takeTrap false e

/-! ### Returning from a trap -/

/-- The address `xepc` holds, as the host adjusts it: without C a multiple of 4, else even (R217, log 18). -/
def epcMask (cfg : Config) : Word := if cfg.hasC then ~~~(1 : Word) else ~~~(3 : Word)

/-- RETURNING FROM A TRAP (R361): the hart goes on in `tm` at the address `xepc` gives, and the recorder sees
`TrapReturn` (R216, then R284). What `xRET` does to its status register is in `execMret` and `execSret`. R217 leaves the
adjustment of `xepc` to the host: that the instruction reads the low XLEN bits of it, XLEN being its own mode's, is the
model's choice (log 48), its alignment log 18, and the cut to the XLEN of `tm` log 43. -/
def State.returnTo (s : State) (tm : Mode) (epc : Word) : State :=
  let target := trunc (xlenOf s.cfg tm) (trunc s.x epc &&& epcMask s.cfg)
  { s with
    ctr := (s.ctr.onTrapReturn s.cfg s.mode tm s.pc target (drawMisp s.draws)).settle s.cfg tm
    mode := tm
    pc := target
    draws := s.draws + 1 }

/-! ### Jumps and branches -/

/-- A jump to `target` that first writes a link register (R260): a misaligned target traps instead, and then nothing
is written (R200). -/
def State.jump (s : State) (k : Kind) (target : Word) (rd : Reg) (link : Word) : Out :=
  if s.misaligned target then s.raise (excMisaligned target)
  else .next ((s.setReg rd link).retire k target)

/-- A conditional branch (R262): taken to `target`, or on to the next instruction, `len` bytes on (R243). It is
classified as the 32-bit branch `i` (R110). -/
def State.branch (s : State) (i : Instr) (taken : Bool) (target : Word) (len : Nat) : Out :=
  if taken then
    if s.misaligned target then s.raise (excMisaligned target)
    else .next (s.retire (kindOfBranch s.cfg i true) target)
  else .next (s.retire (kindOfBranch s.cfg i false) (s.pcNext len))

/-- A compressed instruction: illegal on a hart without the C extension (log 22). -/
def State.compressed (s : State) (i : Instr) (run : Out) : Out :=
  if s.cfg.hasC then run else s.raise (excIllegal s i)

end Sys2Proof.Machine
end

