-- ==== Sys2Proof/Machine/Branches.lean ====
section
/-! DEFINITION. The six conditional branches (spec/45_transfer_type_filtering.md R262 to R267). -/

namespace Sys2Proof.Machine

/-- `beq` (R262). -/
def execBeq (rs1 rs2 : Reg) (off : BitVec 13) (s : State) : Out :=
  s.branch (.beq rs1 rs2 off) (s.reg rs1 == s.reg rs2) (s.pcPlus off) 4

/-- `bne` (R263). -/
def execBne (rs1 rs2 : Reg) (off : BitVec 13) (s : State) : Out :=
  s.branch (.bne rs1 rs2 off) (s.reg rs1 != s.reg rs2) (s.pcPlus off) 4

/-- `blt` (R264): signed. -/
def execBlt (rs1 rs2 : Reg) (off : BitVec 13) (s : State) : Out :=
  s.branch (.blt rs1 rs2 off) (ltSigned s.x (s.reg rs1) (s.reg rs2)) (s.pcPlus off) 4

/-- `bge` (R265): signed. -/
def execBge (rs1 rs2 : Reg) (off : BitVec 13) (s : State) : Out :=
  s.branch (.bge rs1 rs2 off) (!ltSigned s.x (s.reg rs1) (s.reg rs2)) (s.pcPlus off) 4

/-- `bltu` (R266): unsigned. -/
def execBltu (rs1 rs2 : Reg) (off : BitVec 13) (s : State) : Out :=
  s.branch (.bltu rs1 rs2 off) ((s.reg rs1).ult (s.reg rs2)) (s.pcPlus off) 4

/-- `bgeu` (R267): unsigned. -/
def execBgeu (rs1 rs2 : Reg) (off : BitVec 13) (s : State) : Out :=
  s.branch (.bgeu rs1 rs2 off) (!(s.reg rs1).ult (s.reg rs2)) (s.pcPlus off) 4

end Sys2Proof.Machine
end

