-- ==== Sys2Proof/Machine/Compressed.lean ====
section
/-! DEFINITION. The seven compressed instructions (spec/45_transfer_type_filtering.md R268 to R274); each is classified
as the instruction it expands to (R110, R233). -/

namespace Sys2Proof.Machine

/-- `c.j` (R268): `jal x0`. -/
def execCj (off : BitVec 12) (s : State) : Out :=
  s.compressed (.cj off) (s.jump (kindOfJal s.cfg 0 (off.signExtend 21)) (s.pcPlus off) 0 (s.pcNext 2))

/-- `c.jal` (R269): `jal x1` with a 2-byte link, where XLEN is 32; with XLEN = 64 the pattern is the host's
`c.addiw`, which the spec does not define (R108, log 22). -/
def execCjal (off : BitVec 12) (s : State) : Out :=
  match s.x with
  | .x32 =>
    s.compressed (.cjal off) (s.jump (kindOfJal s.cfg 1 (off.signExtend 21)) (s.pcPlus off) 1 (s.pcNext 2))
  | .x64 => s.compressed (.cjal off) (.refused .cAddiw)

/-- `c.jr` (R270): `jalr x0, 0(rs1)`. -/
def execCjr (rs1 : Reg) (s : State) : Out :=
  s.compressed (.cjr rs1) (s.jump (kindOfJalr s.cfg 0 rs1 0) (s.jalrTarget rs1 0) 0 (s.pcNext 2))

/-- `c.jalr` (R271): `jalr x1, 0(rs1)` with a 2-byte link. -/
def execCjalr (rs1 : Reg) (s : State) : Out :=
  s.compressed (.cjalr rs1) (s.jump (kindOfJalr s.cfg 1 rs1 0) (s.jalrTarget rs1 0) 1 (s.pcNext 2))

/-- `c.beqz` (R272): `beq rs1', x0`. -/
def execCbeqz (rs1 : Reg) (off : BitVec 9) (s : State) : Out :=
  s.compressed (.cbeqz rs1 off) (s.branch (.beq rs1 0 (off.signExtend 13)) (s.reg rs1 == 0) (s.pcPlus off) 2)

/-- `c.bnez` (R273): `bne rs1', x0`. -/
def execCbnez (rs1 : Reg) (off : BitVec 9) (s : State) : Out :=
  s.compressed (.cbnez rs1 off) (s.branch (.bne rs1 0 (off.signExtend 13)) (s.reg rs1 != 0) (s.pcPlus off) 2)

/-- `c.ebreak` (R274): a breakpoint exception. -/
def execCebreak (s : State) : Out := s.compressed .cebreak (s.raise (excBreakpoint s))

end Sys2Proof.Machine
end

