-- ==== Sys2Proof/Machine/Jumps.lean ====
section
/-! DEFINITION. `jal` and `jalr` (spec/45_transfer_type_filtering.md R260, R261). -/

namespace Sys2Proof.Machine

/-- `jal` (R260). -/
def execJal (rd : Reg) (off : BitVec 21) (s : State) : Out :=
  s.jump (kindOfJal s.cfg rd off) (s.pcPlus off) rd (s.pcNext 4)

/-- `jalr` (R261): the base is read before `rd` is written, and bit 0 of the sum is cleared. -/
def execJalr (rd rs1 : Reg) (imm : BitVec 12) (s : State) : Out :=
  s.jump (kindOfJalr s.cfg rd rs1 imm) (s.jalrTarget rs1 imm) rd (s.pcNext 4)

end Sys2Proof.Machine
end

