-- ==== Sys2Proof/Machine/System.lean ====
section
/-! DEFINITION. `mret`, `sret`, `ecall`, `ebreak` (spec/45_transfer_type_filtering.md R275 to R278). -/

namespace Sys2Proof.Machine

/-- S-mode, or M-mode on a hart without it (log 42). -/
def landS (cfg : Config) : Mode := if cfg.hasS then .S else .M

/-- U-mode, or the next higher mode on a hart without it (log 42). -/
def landU (cfg : Config) : Mode := if cfg.hasU then .U else landS cfg

/-- The mode `mret` returns to: MPP, with V from MPV below M-mode when H is implemented (R275). -/
def mretMode (cfg : Config) (m : MStatus) : Mode :=
  match m.mpp with
  | .M => .M
  | .S => if cfg.hasH && m.mpv then .VS else landS cfg
  | .U => if cfg.hasH && m.mpv then .VU else landU cfg

/-- `mstatus` after `mret`: MIE gets MPIE, MPIE becomes 1, MPP becomes U, or M where U-mode is absent (R275). -/
def mretStatus (cfg : Config) (m : MStatus) : MStatus :=
  { m with mie := m.mpie, mpie := true, mpp := if cfg.hasU then .U else .M }

/-- `mret` (R275): in M-mode only; below it is an illegal instruction. In Debug Mode it returns as in M-mode (log 21),
and the recorder ignores it (R219). -/
def execMret (s : State) : Out :=
  match s.mode with
  | .M | .Debug =>
    .next ({ s with mstatus := mretStatus s.cfg s.mstatus }.returnTo (mretMode s.cfg s.mstatus) s.mtrap.epc)
  | .S | .U | .VS | .VU => s.raise (excIllegal s .mret)

/-- The mode `sret` returns to outside V=1: SPP, with V from `hstatus.SPV` (R276). -/
def sretMode (cfg : Config) (m : MStatus) (h : HStatus) : Mode :=
  if cfg.hasH && h.spv then (if m.spp then .VS else .VU)
  else if m.spp then landS cfg else landU cfg

/-- `mstatus` after `sret` outside V=1: SIE gets SPIE (R361); SPIE becomes 1 and SPP U, as R275 says of `mret`
(log 18). -/
def sretStatus (m : MStatus) : MStatus := { m with sie := m.spie, spie := true, spp := false }

/-- `vsstatus` after `sret` in VS-mode (R276, R361, log 18). -/
def sretVsStatus (v : VsStatus) : VsStatus := { sie := v.spie, spie := true, spp := false }

/-- `sret` outside V=1, once nothing forbids it. -/
def State.sretHs (s : State) : Out :=
  .next ({ s with mstatus := sretStatus s.mstatus }.returnTo (sretMode s.cfg s.mstatus s.hstatus) s.strap.epc)

/-- `sret` in VS-mode, once nothing forbids it. -/
def State.sretVs (s : State) : Out :=
  .next ({ s with vsstatus := sretVsStatus s.vsstatus }.returnTo (if s.vsstatus.spp then .VS else .VU) s.vstrap.epc)

/-- `sret` (R276): in M-mode, in S-mode unless TSR, in VS-mode unless VTSR; otherwise an illegal or virtual
instruction. Where S-mode is absent it is illegal (log 19). In Debug Mode it is as in M-mode (log 21), and the recorder
ignores it (R219). -/
def execSret (s : State) : Out :=
  match s.mode with
  | .M | .Debug => if s.cfg.hasS then s.sretHs else s.raise (excIllegal s .sret)
  | .S => if s.mstatus.tsr then s.raise (excIllegal s .sret) else s.sretHs
  | .U => s.raise (excIllegal s .sret)
  | .VS => if s.hstatus.vtsr then s.raise (excVirtual s .sret) else s.sretVs
  | .VU => s.raise (excVirtual s .sret)

/-- `ecall` (R277): an environment-call exception whose cause is the mode's. -/
def execEcall (s : State) : Out := s.raise ⟨ecallCause s.mode, 0⟩

/-- `ebreak` (R278): a breakpoint exception. -/
def execEbreak (s : State) : Out := s.raise (excBreakpoint s)

end Sys2Proof.Machine
end

