-- ==== Sys2Proof/Machine/Csr.lean ====
section
/-! DEFINITION. Access to control and status registers: the numbers (spec/10_state.md R47, R62), the access check
(spec/42_state_enable.md R180), the CTR registers (spec/40_csr_access.md R120 to R135), the entry registers
(spec/41_entry_access.md R150 to R161) and the host's registers (log 10), and the one operation the six CSR
instructions share. -/

namespace Sys2Proof.Machine

/-- What an `*ireg*` register shows of the selected entry (R150): `*ireg`, `*ireg2`, `*ireg3`, and the read-only zeros
`*ireg4` to `*ireg6`. -/
inductive IReg where
  | src
  | tgt
  | data
  | zero
deriving DecidableEq, Repr

/-- The control and status registers of the modelled hart: CTR's (R47), the indirect access ones (R62), and the host
registers the trap rules name (log 10). -/
inductive Csr where
  | mctrcontrol
  | mctrcontrolh
  | mctrstatus
  | sctrcontrol
  | sctrcontrolh
  | sctrstatus
  | vsctrcontrol
  | vsctrcontrolh
  | miselect
  | siselect
  | vsiselect
  | mireg (r : IReg)
  | sireg (r : IReg)
  | vsireg (r : IReg)
  | mstatus
  | mstatush
  | medeleg
  | mideleg
  | mip
  | mtvec
  | mepc
  | mcause
  | mtval
  | mstateen0
  | mstateen0h
  | sstatus
  | stvec
  | sepc
  | scause
  | stval
  | hstatus
  | hedeleg
  | hideleg
  | hstateen0
  | hstateen0h
  | vsstatus
  | vstvec
  | vsepc
  | vscause
  | vstval
deriving DecidableEq, Repr

/-- CTR's numbers (R47). -/
def ctrCsrTable : List (CsrNum × Csr) :=
  [(0x381, .mctrcontrol), (0x382, .mctrcontrolh), (0x383, .mctrstatus),
    (0x181, .sctrcontrol), (0x182, .sctrcontrolh), (0x183, .sctrstatus),
    (0x281, .vsctrcontrol), (0x282, .vsctrcontrolh)]

/-- The indirect access numbers (R62). -/
def indirectCsrTable : List (CsrNum × Csr) :=
  [(0x350, .miselect), (0x351, .mireg .src), (0x352, .mireg .tgt), (0x353, .mireg .data),
    (0x355, .mireg .zero), (0x356, .mireg .zero), (0x357, .mireg .zero),
    (0x150, .siselect), (0x151, .sireg .src), (0x152, .sireg .tgt), (0x153, .sireg .data),
    (0x155, .sireg .zero), (0x156, .sireg .zero), (0x157, .sireg .zero),
    (0x250, .vsiselect), (0x251, .vsireg .src), (0x252, .vsireg .tgt), (0x253, .vsireg .data),
    (0x255, .vsireg .zero), (0x256, .vsireg .zero), (0x257, .vsireg .zero)]

/-- The host's numbers: `mtvec` 0x305 and `mepc` 0x341 are in spec/95_test_vectors.md, the others the family's
(log 10). -/
def hostCsrTable : List (CsrNum × Csr) :=
  [(0x300, .mstatus), (0x310, .mstatush), (0x302, .medeleg), (0x303, .mideleg), (0x305, .mtvec), (0x341, .mepc),
    (0x342, .mcause), (0x343, .mtval), (0x344, .mip), (0x30C, .mstateen0), (0x31C, .mstateen0h),
    (0x100, .sstatus), (0x105, .stvec), (0x141, .sepc), (0x142, .scause), (0x143, .stval),
    (0x600, .hstatus), (0x602, .hedeleg), (0x603, .hideleg), (0x60C, .hstateen0), (0x61C, .hstateen0h),
    (0x200, .vsstatus), (0x205, .vstvec), (0x241, .vsepc), (0x242, .vscause), (0x243, .vstval)]

/-- The register a number names; none where the hart has no such register. -/
def csrOf (n : CsrNum) : Option Csr := (ctrCsrTable ++ indirectCsrTable ++ hostCsrTable).lookup n

/-! ### The access check -/

/-- The group of a register (spec/42_state_enable.md, names): the level its number belongs to. -/
inductive Group where
  | m
  | s
  | vs
deriving DecidableEq, Repr

/-- The group of each register (R101, R171). -/
def csrGroup : Csr → Group
  | .mctrcontrol | .mctrcontrolh | .mctrstatus | .miselect | .mireg _ => .m
  | .sctrcontrol | .sctrcontrolh | .sctrstatus | .siselect | .sireg _ => .s
  | .vsctrcontrol | .vsctrcontrolh | .vsiselect | .vsireg _ => .vs
  | .mstatus | .mstatush | .medeleg | .mideleg | .mip | .mtvec | .mepc | .mcause | .mtval => .m
  | .mstateen0 | .mstateen0h => .m
  | .sstatus | .stvec | .sepc | .scause | .stval => .s
  | .hstatus | .hedeleg | .hideleg | .hstateen0 | .hstateen0h => .vs
  | .vsstatus | .vstvec | .vsepc | .vscause | .vstval => .vs

/-- The registers that exist only where XLEN is 32 (R173; log 10 for the host's). -/
def csrHigh : Csr → Bool
  | .mctrcontrolh | .sctrcontrolh | .vsctrcontrolh | .mstatush | .mstateen0h | .hstateen0h => true
  | _ => false

/-- The registers bit 60 of the state enables covers: `*iselect` and `*ireg*` (R179). -/
def csrIndirect : Csr → Bool
  | .miselect | .siselect | .vsiselect | .mireg _ | .sireg _ | .vsireg _ => true
  | _ => false

/-- The registers whose existence hangs on a parameter other than S-mode, H or the width (log 10). -/
def csrPresent (cfg : Config) : Csr → Bool
  | .medeleg | .mideleg => cfg.hasS
  | .mstateen0 | .mstateen0h | .hstateen0 | .hstateen0h => cfg.hasSmstateen
  | _ => true

/-- The select value an `*ireg*` access uses: from V=1 `sireg*` is really `vsireg*` (R150). How wide a select register
is stands in no source; that the low XLEN bits of the value held, XLEN being the accessing mode's, decide the range
and the entry is the model's choice (log 14). -/
def State.selectOf (s : State) : Csr → Option Word
  | .mireg _ => some (trunc s.x s.miselect)
  | .sireg _ => some (trunc s.x (if isV s.mode then s.vsiselect else s.siselect))
  | .vsireg _ => some (trunc s.x s.vsiselect)
  | _ => none

/-- A select value of CTR's, 0x200 to 0x2FF (R102, R150). -/
def selectInRange (v : Word) : Bool := decide (0x200 ≤ v.toNat) && decide (v.toNat < 0x300)

/-- An `*ireg*` register whose select names no CTR entry (R161). -/
def State.selectOutside (s : State) (c : Csr) : Bool :=
  match s.selectOf c with
  | some v => !selectInRange v
  | none => false

/-- The registers that the CTR state-enable bit covers (R175, R177): the CTR registers, and `*ireg*` while the select
is in CTR's range. -/
def State.csrIsCtr (s : State) (c : Csr) : Bool :=
  match c with
  | .mctrcontrol | .mctrcontrolh | .mctrstatus | .sctrcontrol | .sctrcontrolh | .sctrstatus => true
  | .vsctrcontrol | .vsctrcontrolh => true
  | .mireg _ | .sireg _ | .vsireg _ => !s.selectOutside c
  | _ => false

/-- What the access check decides. -/
inductive Verdict where
  | pass
  | illegal
  | virtual
deriving DecidableEq, Repr

/-- A state-enable bit that refuses: only with Smstateen (R178). -/
def State.stateenOff (s : State) (reg : Word) (bit : Nat) : Bool := s.cfg.hasSmstateen && !reg.getLsbD bit

/-- The whole access check in the order of R180; Debug Mode passes as M-mode does (D16). -/
def State.checkAccess (s : State) (c : Csr) : Verdict :=
  if csrHigh c && s.x != .x32 then .illegal                                        -- line 1
  else if !csrPresent s.cfg c then .illegal                                        -- log 10
  else if csrGroup c == .s && !s.cfg.hasS then .illegal                            -- line 2
  else if csrGroup c == .vs && !s.cfg.hasH then .illegal                           -- line 3
  else if s.mode == .M || s.mode == .Debug then .pass                              -- line 4
  else if csrGroup c == .m then .illegal                                           -- line 5
  else if s.csrIsCtr c && s.stateenOff s.mstateen0 55 then .illegal                -- line 6
  else if csrIndirect c && s.stateenOff s.mstateen0 60 then .illegal               -- line 7
  else if s.mode == .U then .illegal                                               -- line 8
  else if s.mode == .S then .pass                                                  -- line 9
  else if csrGroup c == .vs then .virtual                                          -- line 10
  else if s.mode == .VU then .virtual                                              -- line 11
  else if s.csrIsCtr c && s.stateenOff s.hstateen0 55 then .virtual                -- line 12
  else if csrIndirect c && s.stateenOff s.hstateen0 60 then .virtual               -- line 13
  else .pass                                                                       -- line 14

/-! ### The control and status registers of CTR -/

/-- The bit positions an access of the low half covers (R120). -/
def coverLow (x : Xlen) : Word := trunc x (BitVec.allOnes 64)

/-- The bit positions a high-half register covers (R125). -/
def coverHigh : Word := BitVec.allOnes 64 <<< 32

/-- `mctl` after a write (R122): the implemented bits covered and not protected, and DEPTH legalised where it is
covered. -/
def Ctr.mctlAfter (cfg : Config) (c : Ctr) (v cover protect : Word) : Word :=
  let w := maskM cfg &&& cover &&& ~~~protect
  let merged := (c.mctl &&& ~~~w) ||| (v &&& w)
  if depthField cover = 0b1111 then setDepthField merged (depthBits (legalizeDepth cfg (depthField v))) else merged

/-- `write_mctl` (R122): a 1 in bit 7 clears; else a change of DEPTH is a depth change. -/
def Ctr.writeMctl (cfg : Config) (ev : Nat) (c : Ctr) (v cover protect : Word) : Ctr :=
  let stored := { c with mctl := c.mctlAfter cfg v cover protect }
  if cover.getLsbD 7 && v.getLsbD 7 then stored.clear cfg ev
  else if depthField stored.mctl ≠ depthField c.mctl then stored.depthChange cfg ev
  else stored

/-- `vsctl` after a write (R122): the implemented bits covered. -/
def Ctr.vsctlAfter (cfg : Config) (c : Ctr) (v cover : Word) : Word :=
  let w := maskV cfg &&& cover
  (c.vsctl &&& ~~~w) ||| (v &&& w)

/-- `write_vsctl` (R122). -/
def Ctr.writeVsctl (cfg : Config) (ev : Nat) (c : Ctr) (v cover : Word) (clrEffective : Bool) : Ctr :=
  let stored := { c with vsctl := c.vsctlAfter cfg v cover }
  if cover.getLsbD 7 && v.getLsbD 7 && clrEffective then stored.clear cfg ev else stored

/-- The value `vsctrcontrol` shows: DEPTH is `mctrcontrol`'s and CLR reads 0 (R128). -/
def Ctr.vsctlView (c : Ctr) : Word := setDepthField c.vsctl (depthField c.mctl) &&& ~~~(0x80 : Word)

/-- The bits of `mctrcontrol` that `sctrcontrol` hides: M and MTE (R126). -/
def sHidden : Word := 0x101

/-- The value `sctrcontrol` shows, by V (R126, R127). -/
def Ctr.sctlView (c : Ctr) (m : Mode) : Word := if isV m then c.vsctlView else c.mctl &&& ~~~sHidden

/-- The value of `mctrstatus` (R133). -/
def Ctr.statusWord (c : Ctr) : Word :=
  (0#48 ++ BitVec.ofBool c.frozen ++ BitVec.ofBool c.wrap ++ 0#6 ++ c.wrptr : Word)

/-- A write of `mctrstatus` (R134). -/
def Ctr.writeStatus (cfg : Config) (c : Ctr) (v : Word) : Ctr :=
  { c with
    wrptr := v.extractLsb' 0 8 &&& BitVec.ofNat 8 (2 ^ cfg.wrptrBits.val - 1)
    wrap := v.getLsbD 14
    frozen := v.getLsbD 15 }

/-! ### The entry registers -/

/-- The logical entry a select value names (R150). -/
def logicalOf (v : Word) : Nat := v.toNat - 0x200

/-- An entry register's contents. -/
def Entry.reg (e : Entry) : IReg → Word
  | .src => e.src
  | .tgt => e.tgt
  | .data => e.data
  | .zero => 0

/-- A read of `*ireg*` for logical entry `i` (R152, R153, R157): entries at or above the depth read 0. -/
def Ctr.readEntry (c : Ctr) (x : Xlen) (r : IReg) (i : Nat) : Word :=
  if i < c.depth then trunc x ((c.arr.get (c.phys i)).reg r) else 0

/-- An address register after a software write of XLEN bits (R154, R155): the PC bits are legalised, and where XLEN is
below MXLEN the bits above are free (D20). -/
def writeAddr (cfg : Config) (ev : Nat) (x : Xlen) (v : Word) (bit0 : Bool) : Word :=
  let w := legalizeVa cfg (xbits x - 1) ((trunc x v).extractLsb' 1 63) ++ BitVec.ofBool bit0
  if x = .x32 ∧ cfg.mxlen = .x64 then joinHalves (draw ev 9) w else w

/-- An entry after a write of one of its registers (R154 to R157). -/
def Entry.write (cfg : Config) (ev : Nat) (x : Xlen) (r : IReg) (v : Word) (e : Entry) : Entry :=
  match r with
  | .src => { e with src := writeAddr cfg ev x v (v.getLsbD 0) }
  | .tgt => { e with tgt := writeAddr cfg ev x v (v.getLsbD 0 && cfg.hasMisp) }
  | .data => { e with data := v &&& dataMask cfg }
  | .zero => e

/-- A write of `*ireg*` for logical entry `i` (R153 to R157): ignored at or above the depth. -/
def Ctr.writeEntry (cfg : Config) (ev : Nat) (c : Ctr) (x : Xlen) (r : IReg) (i : Nat) (v : Word) : Ctr :=
  if i < c.depth then
    { c with arr := c.arr.set (c.phys i) (Entry.write cfg ev x r v (c.arr.get (c.phys i))) }
  else c

/-! ### The host's registers -/

/-- MPP's bits (log 11). -/
def privBits : Priv → BitVec 2
  | .U => 0b00
  | .S => 0b01
  | .M => 0b11

/-- The levels MPP may hold: those of the modes the hart has, VS and VU among them (log 11). -/
def legalPrivs (cfg : Config) : List Priv :=
  Priv.M :: ((if cfg.hasS || cfg.hasH then [Priv.S] else []) ++ (if cfg.hasU || cfg.hasH then [Priv.U] else []))

/-- The level named by MPP's bits. -/
def privOfBits (b : BitVec 2) : Option Priv :=
  if b = 0b00 then some .U else if b = 0b01 then some .S else if b = 0b11 then some .M else none

/-- MPP after a write: a legal level as written, else a legal one that depends on the value written and the value
held (R13, log 11). -/
def legalizeMpp (cfg : Config) (written old : Word) : Priv :=
  let other := (legalPrivs cfg).getD (Config.warlPick written old % (legalPrivs cfg).length) .M
  match privOfBits (written.extractLsb' 11 2) with
  | some p => if (legalPrivs cfg).contains p then p else other
  | none => other

/-- `mstatus` as one word (log 11). -/
def MStatus.word (m : MStatus) : Word :=
  bitIf m.sie 1 ||| bitIf m.mie 3 ||| bitIf m.spie 5 ||| bitIf m.mpie 7 ||| bitIf m.spp 8
    ||| ((privBits m.mpp).setWidth 64 <<< 11) ||| bitIf m.tsr 22 ||| bitIf m.mpv 39

/-- `mstatus` after a write of XLEN bits (log 11): MPV is in the high half. -/
def MStatus.write (cfg : Config) (x : Xlen) (m : MStatus) (v : Word) : MStatus where
  mie := v.getLsbD 3
  mpie := v.getLsbD 7
  mpp := legalizeMpp cfg v m.word
  mpv := if x = .x64 then cfg.hasH && v.getLsbD 39 else m.mpv
  sie := cfg.hasS && v.getLsbD 1
  spie := cfg.hasS && v.getLsbD 5
  spp := cfg.hasS && v.getLsbD 8
  tsr := cfg.hasS && v.getLsbD 22

/-- `sstatus` (log 11). -/
def MStatus.sWord (m : MStatus) : Word := bitIf m.sie 1 ||| bitIf m.spie 5 ||| bitIf m.spp 8

/-- `mstatus` after a write of `sstatus` (log 11). -/
def MStatus.sWrite (m : MStatus) (v : Word) : MStatus :=
  { m with sie := v.getLsbD 1, spie := v.getLsbD 5, spp := v.getLsbD 8 }

/-- `hstatus` (log 11). -/
def HStatus.word (h : HStatus) : Word := bitIf h.spv 7 ||| bitIf h.vtsr 22

/-- `vsstatus` (log 11). -/
def VsStatus.word (v : VsStatus) : Word := bitIf v.sie 1 ||| bitIf v.spie 5 ||| bitIf v.spp 8

/-- `xtvec` after a write: the mode is direct or vectored, and an illegal one becomes one of them (R13, log 36). -/
def tvecLegal (written old : Word) : Word :=
  if written.getLsbD 1 then
    (written &&& ~~~(3 : Word)) ||| BitVec.ofNat 64 (Config.warlPick written old % 2)
  else written

/-- The bits of the state-enable registers that are held: CTR and the indirect access bit (R63, log 35). -/
def stateenMask : Word := BitVec.twoPow 64 55 ||| BitVec.twoPow 64 60

/-- The bits of `mip` a write changes: SSIP 1, STIP 5 and SEIP 9 with S-mode, and LCOFIP 13; the others are the
platform's (log 46). -/
def mipMask (cfg : Config) : Word := bitIf cfg.hasS 1 ||| bitIf cfg.hasS 5 ||| bitIf cfg.hasS 9 ||| bitIf true 13

/-- The exceptions `medeleg` can delegate: not the environment call from M-mode, bit 11. Every other bit of it, and
every bit of `mideleg` and `hideleg`, is held as written (log 17). -/
def medelegMask : Word := ~~~(0x800 : Word)

/-- The exceptions `hedeleg` can delegate: not the environment calls above VU-mode, bits 9 to 11, nor the virtual
instruction and guest-page faults, bits 20 to 23. Every other bit is held as written (log 17). -/
def hedelegMask : Word := ~~~(0xF00E00 : Word)

/-- A register after a write of the bits in `cover` that exist. -/
def mergeBits (old v cover : Word) : Word := (old &&& ~~~cover) ||| (v &&& cover)

/-- From VS-mode the supervisor registers are the VS ones (R150 for the select registers; log 10 for the host's). -/
def aliasOf (m : Mode) (c : Csr) : Csr :=
  if isV m then
    match c with
    | .siselect => .vsiselect
    | .sstatus => .vsstatus
    | .stvec => .vstvec
    | .sepc => .vsepc
    | .scause => .vscause
    | .stval => .vstval
    | c => c
  else c

/-! ### Reading and writing -/

/-- The XLEN-bit value of a register (R123 to R133, R152, R153, R157; logs 10 and 14 for the host's). -/
def State.readCsr (s : State) (c : Csr) : Word :=
  match aliasOf s.mode c with
  | .mctrcontrol => trunc s.x s.ctr.mctl
  | .mctrcontrolh => s.ctr.mctl >>> 32
  | .mctrstatus => s.ctr.statusWord
  | .sctrcontrol => trunc s.x (s.ctr.sctlView s.mode)
  | .sctrcontrolh => s.ctr.sctlView s.mode >>> 32
  | .sctrstatus => s.ctr.statusWord
  | .vsctrcontrol => trunc s.x s.ctr.vsctlView
  | .vsctrcontrolh => s.ctr.vsctlView >>> 32
  | .miselect => trunc s.x s.miselect
  | .siselect => trunc s.x s.siselect
  | .vsiselect => trunc s.x s.vsiselect
  | .mireg r => s.ctr.readEntry s.x r (logicalOf ((s.selectOf c).getD 0))
  | .sireg r => s.ctr.readEntry s.x r (logicalOf ((s.selectOf c).getD 0))
  | .vsireg r => s.ctr.readEntry s.x r (logicalOf ((s.selectOf c).getD 0))
  | .mstatus => trunc s.x s.mstatus.word
  | .mstatush => s.mstatus.word >>> 32
  | .medeleg => trunc s.x s.medeleg
  | .mideleg => trunc s.x s.mideleg
  | .mip => trunc s.x s.mip
  | .mtvec => trunc s.x s.mtrap.tvec
  | .mepc => trunc s.x (s.mtrap.epc &&& epcMask s.cfg)
  | .mcause => trunc s.x s.mtrap.cause
  | .mtval => trunc s.x s.mtrap.tval
  | .mstateen0 => trunc s.x s.mstateen0
  | .mstateen0h => s.mstateen0 >>> 32
  | .sstatus => trunc s.x s.mstatus.sWord
  | .stvec => trunc s.x s.strap.tvec
  | .sepc => trunc s.x (s.strap.epc &&& epcMask s.cfg)
  | .scause => trunc s.x s.strap.cause
  | .stval => trunc s.x s.strap.tval
  | .hstatus => trunc s.x s.hstatus.word
  | .hedeleg => trunc s.x s.hedeleg
  | .hideleg => trunc s.x s.hideleg
  | .hstateen0 => trunc s.x s.hstateen0
  | .hstateen0h => s.hstateen0 >>> 32
  | .vsstatus => trunc s.x s.vsstatus.word
  | .vstvec => trunc s.x s.vstrap.tvec
  | .vsepc => trunc s.x (s.vstrap.epc &&& epcMask s.cfg)
  | .vscause => trunc s.x s.vstrap.cause
  | .vstval => trunc s.x s.vstrap.tval

/-- The state after an XLEN-bit value is written to a register (R124 to R135, R153 to R157; logs 10 to 12, 14, 17, 35,
36, 46 for the host's). -/
def State.writeCsr (s : State) (c : Csr) (v : Word) : State :=
  let low := coverLow s.x
  let hi := v <<< 32
  let i := logicalOf ((s.selectOf c).getD 0)
  let full := s.widen 9 v
  match aliasOf s.mode c with
  | .mctrcontrol => { s with ctr := s.ctr.writeMctl s.cfg s.draws v low 0 }
  | .mctrcontrolh => { s with ctr := s.ctr.writeMctl s.cfg s.draws hi coverHigh 0 }
  | .mctrstatus => { s with ctr := s.ctr.writeStatus s.cfg v }
  | .sctrcontrol =>
    { s with
      ctr :=
        if isV s.mode then s.ctr.writeVsctl s.cfg s.draws v low true
        else s.ctr.writeMctl s.cfg s.draws v low sHidden }
  | .sctrcontrolh =>
    { s with
      ctr :=
        if isV s.mode then s.ctr.writeVsctl s.cfg s.draws hi coverHigh true
        else s.ctr.writeMctl s.cfg s.draws hi coverHigh 0 }
  | .sctrstatus => { s with ctr := s.ctr.writeStatus s.cfg v }
  | .vsctrcontrol => { s with ctr := s.ctr.writeVsctl s.cfg s.draws v low false }
  | .vsctrcontrolh => { s with ctr := s.ctr.writeVsctl s.cfg s.draws hi coverHigh false }
  | .miselect => { s with miselect := full }
  | .siselect => { s with siselect := full }
  | .vsiselect => { s with vsiselect := full }
  | .mireg r => { s with ctr := s.ctr.writeEntry s.cfg s.draws s.x r i v }
  | .sireg r => { s with ctr := s.ctr.writeEntry s.cfg s.draws s.x r i v }
  | .vsireg r => { s with ctr := s.ctr.writeEntry s.cfg s.draws s.x r i v }
  | .mstatus => { s with mstatus := s.mstatus.write s.cfg s.x v }
  | .mstatush => { s with mstatus := { s.mstatus with mpv := s.cfg.hasH && v.getLsbD 7 } }
  | .medeleg => { s with medeleg := mergeBits s.medeleg v (low &&& medelegMask) }
  | .mideleg => { s with mideleg := mergeBits s.mideleg v low }
  | .mip => { s with mip := mergeBits s.mip v (low &&& mipMask s.cfg) }
  | .mtvec => { s with mtrap := { s.mtrap with tvec := tvecLegal full s.mtrap.tvec } }
  | .mepc => { s with mtrap := { s.mtrap with epc := full &&& epcMask s.cfg } }
  | .mcause => { s with mtrap := { s.mtrap with cause := full } }
  | .mtval => { s with mtrap := { s.mtrap with tval := full } }
  | .mstateen0 => { s with mstateen0 := mergeBits s.mstateen0 v (low &&& stateenMask) }
  | .mstateen0h => { s with mstateen0 := mergeBits s.mstateen0 hi (coverHigh &&& stateenMask) }
  | .sstatus => { s with mstatus := s.mstatus.sWrite v }
  | .stvec => { s with strap := { s.strap with tvec := tvecLegal full s.strap.tvec } }
  | .sepc => { s with strap := { s.strap with epc := full &&& epcMask s.cfg } }
  | .scause => { s with strap := { s.strap with cause := full } }
  | .stval => { s with strap := { s.strap with tval := full } }
  | .hstatus => { s with hstatus := ⟨v.getLsbD 7, v.getLsbD 22⟩ }
  | .hedeleg => { s with hedeleg := mergeBits s.hedeleg v (low &&& hedelegMask) }
  | .hideleg => { s with hideleg := mergeBits s.hideleg v low }
  | .hstateen0 => { s with hstateen0 := mergeBits s.hstateen0 v (low &&& stateenMask) }
  | .hstateen0h => { s with hstateen0 := mergeBits s.hstateen0 hi (coverHigh &&& stateenMask) }
  | .vsstatus => { s with vsstatus := ⟨v.getLsbD 1, v.getLsbD 5, v.getLsbD 8⟩ }
  | .vstvec => { s with vstrap := { s.vstrap with tvec := tvecLegal full s.vstrap.tvec } }
  | .vsepc => { s with vstrap := { s.vstrap with epc := full &&& epcMask s.cfg } }
  | .vscause => { s with vstrap := { s.vstrap with cause := full } }
  | .vstval => { s with vstrap := { s.vstrap with tval := full } }

/-! ### The CSR instructions -/

/-- A CSR instruction is over: `x[rd]` gets the value read, R284 is applied, the pc advances. -/
def State.csrDone (s : State) (rd : Reg) (t : Word) : State :=
  { s.setReg rd t with
    ctr := s.ctr.settle s.cfg s.mode
    pc := s.pcNext 4
    draws := s.draws + 1 }

/-- What the six CSR instructions share (R120, R140 to R145): the access check, the value read, and the write, if
there is one, of a value computed from it. A number the hart has no register for is illegal (R344, log 10). -/
def State.csrOp (s : State) (i : Instr) (n : CsrNum) (rd : Reg) (write : Option (Word → Word)) : Out :=
  match csrOf n with
  | none => s.raise (excIllegal s i)
  | some c =>
    match s.checkAccess c with
    | .illegal => s.raise (excIllegal s i)
    | .virtual => s.raise (excVirtual s i)
    | .pass =>
      if s.selectOutside c then .refused .indirectSelect
      else
        match write with
        | none => .next (s.csrDone rd (s.readCsr c))
        | some f => .next ((s.writeCsr c (f (s.readCsr c))).csrDone rd (s.readCsr c))

end Sys2Proof.Machine
end

