-- ==== Sys2Proof/Machine/Zicsr.lean ====
section
/-! DEFINITION. The six CSR instructions (spec/40_csr_access.md R140 to R145). -/

namespace Sys2Proof.Machine

/-- `csrrw` (R140): always a write, of `x[rs1]`. The read that R140 leaves out when `rd` is `x0` has no effect. -/
def execCsrrw (rd : Reg) (csr : CsrNum) (rs1 : Reg) (s : State) : Out :=
  s.csrOp (.csrrw rd csr rs1) csr rd (some fun _ => s.reg rs1)

/-- `csrrs` (R141): sets the bits of `x[rs1]`; no write when `rs1` is `x0`. -/
def execCsrrs (rd : Reg) (csr : CsrNum) (rs1 : Reg) (s : State) : Out :=
  s.csrOp (.csrrs rd csr rs1) csr rd (if rs1 = 0 then none else some fun t => t ||| s.reg rs1)

/-- `csrrc` (R142): clears the bits of `x[rs1]`; no write when `rs1` is `x0`. -/
def execCsrrc (rd : Reg) (csr : CsrNum) (rs1 : Reg) (s : State) : Out :=
  s.csrOp (.csrrc rd csr rs1) csr rd (if rs1 = 0 then none else some fun t => t &&& ~~~s.reg rs1)

/-- `csrrwi` (R143): always a write, of the immediate. -/
def execCsrrwi (rd : Reg) (csr : CsrNum) (uimm : BitVec 5) (s : State) : Out :=
  s.csrOp (.csrrwi rd csr uimm) csr rd (some fun _ => csrImm uimm)

/-- `csrrsi` (R144): sets the immediate's bits; no write when it is 0. -/
def execCsrrsi (rd : Reg) (csr : CsrNum) (uimm : BitVec 5) (s : State) : Out :=
  s.csrOp (.csrrsi rd csr uimm) csr rd (if uimm = 0 then none else some fun t => t ||| csrImm uimm)

/-- `csrrci` (R145): clears the immediate's bits; no write when it is 0. -/
def execCsrrci (rd : Reg) (csr : CsrNum) (uimm : BitVec 5) (s : State) : Out :=
  s.csrOp (.csrrci rd csr uimm) csr rd (if uimm = 0 then none else some fun t => t &&& ~~~csrImm uimm)

end Sys2Proof.Machine
end

