-- ==== Sys2Proof/Machine/Fetch.lean ====
section
/-! DEFINITION. Fetching an instruction's bytes (spec/20_memory.md R82; spec/30_encoding.md R105; log 7), and the two
host instructions that the programs of spec/95_test_vectors.md use beside the table's (part 4 there; log 9). -/

namespace Sys2Proof.Machine

/-- The byte `k` bytes after the pc. -/
def State.fetchByte (s : State) (k : Nat) : Option Byte := memRead s.mem (s.pcAddr k)

/-- The bytes of the instruction at the pc: the low parcel, and the second one where the length bits ask for it (R105).
None where one of them was never written. -/
def State.fetchBytes (s : State) : Option (List Byte) :=
  match s.fetchByte 0, s.fetchByte 1 with
  | some b0, some b1 =>
    if b0.extractLsb' 0 2 = 0b11#2 ∧ b0.extractLsb' 2 3 ≠ 0b111#3 then
      match s.fetchByte 2, s.fetchByte 3 with
      | some b2, some b3 => some [b0, b1, b2, b3]
      | _, _ => none
    else some [b0, b1]
  | _, _ => none

/-- The bits of the instruction at the pc, where the memory holds one of 16 or 32 bits there. -/
def State.fetchBits (s : State) : Option Word :=
  match s.fetchBytes with
  | none => none
  | some bytes =>
    match splitEncoding bytes with
    | .ok (enc, _) => some enc.bits
    | .error _ => none

/-- The host instructions that spec/95_test_vectors.md part 4 gives; they are no rows of the table and no control
transfers. -/
inductive HostInstr where
  | addi (rd rs1 : Reg) (imm : BitVec 12)
  | lui (rd : Reg) (imm : BitVec 20)
deriving DecidableEq, Repr

/-- `addi` (opcode 0b0010011, funct3 000) and `lui` (opcode 0b0110111). -/
def decodeHost : List Byte → Option HostInstr
  | [b0, b1, b2, b3] =>
    let w : BitVec 32 := b3 ++ b2 ++ b1 ++ b0
    if w.extractLsb' 0 7 = 0b0010011#7 ∧ w.extractLsb' 12 3 = 0#3 then
      some (.addi (w.extractLsb' 7 5) (w.extractLsb' 15 5) (w.extractLsb' 20 12))
    else if w.extractLsb' 0 7 = 0b0110111#7 then some (.lui (w.extractLsb' 7 5) (w.extractLsb' 12 20))
    else none
  | _ => none

/-- Writes a result and goes on 4 bytes later; the recorder sees nothing (R233: no event). -/
def State.hostResult (s : State) (rd : Reg) (v : Word) : State :=
  { s.setReg rd (trunc s.x v) with pc := s.pcNext 4, draws := s.draws + 1 }

/-- `addi`: `x[rd] <- x[rs1] + sext(imm)`; `lui`: `x[rd] <- sext(imm << 12)`. -/
def execHost (i : HostInstr) (s : State) : Out :=
  match i with
  | .addi rd rs1 imm => .next (s.hostResult rd (s.reg rs1 + imm.signExtend 64))
  | .lui rd imm => .next (s.hostResult rd ((imm ++ 0#12).signExtend 64))

end Sys2Proof.Machine
end

