-- ==== Sys2Proof/Machine/Environment.lean ====
section
/-! DEFINITION. The environment's events (spec/00_scope.md R7; spec/46_cycle_counting.md R283, R285;
spec/44_privilege_transitions.md R219; spec/70_reset_and_hazards.md R380, R381; log 20). -/

namespace Sys2Proof.Machine

/-- `DebugEntry` (R219): no record; the cycle counter stops. -/
def State.enterDebug (s : State) : State := { s with ctr := s.ctr.settle s.cfg .Debug, mode := .Debug }

/-- `DebugExit` (R219): the hart goes on in a mode at an address, both the debugger's (log 41). -/
def State.exitDebug (s : State) (m : Mode) (pc : Word) : State :=
  { s with
    ctr := s.ctr.settle s.cfg m
    mode := m
    pc := trunc (xlenOf s.cfg m) (pc &&& epcMask s.cfg) }

/-- A drawn MXLEN-bit register of the host. -/
def State.drawReg (s : State) (k : Nat) : Word := draw s.draws k &&& mxMask s.cfg

/-- The trap registers of one mode, drawn. -/
def State.drawTrapRegs (s : State) (k : Nat) : TrapRegs where
  tvec := tvecLegal (s.drawReg k) 0
  epc := s.drawReg (k + 1) &&& epcMask s.cfg
  cause := s.drawReg (k + 2)
  tval := s.drawReg (k + 3)

/-- `Reset` (R380, R381): the recorder's state is drawn within the invariants of R71; the hart is in M-mode with
interrupts disabled at the implementation's pc, `mstateen0` is 0, and its other registers are drawn (log 6). -/
def State.resetEvent (s : State) : State :=
  { s with
    ctr := (drawCtr s.cfg s.draws s.ctr).settle s.cfg .M
    regs := Vector.ofFn fun r : Fin 32 => s.drawReg (2000 + r.val)
    pc := trunc s.cfg.mxlen (s.cfg.resetPc &&& epcMask s.cfg)
    mode := .M
    mstatus := { MStatus.write s.cfg .x64 s.mstatus (draw s.draws 2100) with mie := false }
    hstatus := ⟨s.cfg.hasH && (draw s.draws 2101).getLsbD 7, s.cfg.hasH && (draw s.draws 2101).getLsbD 22⟩
    vsstatus := ⟨(draw s.draws 2102).getLsbD 1, (draw s.draws 2102).getLsbD 5, (draw s.draws 2102).getLsbD 8⟩
    mtrap := s.drawTrapRegs 2104
    strap := s.drawTrapRegs 2108
    vstrap := s.drawTrapRegs 2112
    medeleg := s.drawReg 2116 &&& medelegMask
    mideleg := s.drawReg 2117
    hedeleg := s.drawReg 2118 &&& hedelegMask
    hideleg := s.drawReg 2119
    mip := s.drawReg 2124
    mstateen0 := 0
    hstateen0 := draw s.draws 2120 &&& stateenMask
    miselect := s.drawReg 2121
    siselect := s.drawReg 2122
    vsiselect := s.drawReg 2123
    draws := s.draws + 1 }

/-- What `xtval` gets from a host exception of the instruction at the pc (R351): the pc or 0 from a breakpoint, the
instruction's bits or 0 from an illegal or virtual instruction, 0 from an environment call, and from any other the value
`tval` that the event carries, cut to MXLEN. Where the memory does not hold the instruction, `tval` stands for its bits
(log 16). -/
def State.hostTval (s : State) (cause : BitVec 6) (tval : Word) : Word :=
  let given := trunc s.cfg.mxlen tval
  if cause = breakpointCause then (excBreakpoint s).tval
  else if cause = 2 ∨ cause = 22 then (if s.cfg.tvalBits then s.fetchBits.getD given else 0)
  else if 8 ≤ cause.toNat ∧ cause.toNat ≤ 11 then 0
  else given

/-- What an event of the environment does; `run` is the step's own (Machine/Step.lean). -/
def envStep (e : EnvEvent) (s : State) : Out :=
  match e with
  | .run => .next s
  | .tick => .next { s with ctr := s.ctr.onTick s.cfg s.mode }
  | .counterStop => .next { s with ctr := s.ctr.onCounterStop s.cfg }
  | .pending bits => .next { s with mip := bits &&& mxMask s.cfg }
  | .interrupt cause => s.takeTrap true ⟨cause, 0⟩
  | .exception cause tval => s.takeTrap false ⟨cause, s.hostTval cause tval⟩
  | .debugEntry => .next s.enterDebug
  | .debugExit m pc =>
    if s.mode = .Debug ∧ m ≠ .Debug ∧ hasMode s.cfg m then .next (s.exitDebug m pc) else .refused .impossibleEvent
  | .reset => .next s.resetEvent

end Sys2Proof.Machine
end

