-- ==== Sys2Proof/Machine/Cycle.lean ====
section
/-! DEFINITION. One instruction of the hart, and one event of the environment (spec/00_scope.md R7; log 20). -/

namespace Sys2Proof.Machine

/-- Fetches, decodes and runs the instruction at the pc. Words outside the table are refused, except the two host
instructions of Machine/Fetch.lean (log 9). -/
def State.runInstr (s : State) : Out :=
  match s.fetchBytes with
  | none => .fault .unwrittenFetch
  | some bytes =>
    match decode bytes with
    | .ok (i, _) => exec i s
    | .error e =>
      match decodeHost bytes with
      | some h => execHost h s
      | none => .refused (.undecodable e)

/-- Takes the environment's next event; with none pending, the hart runs. -/
def State.cycle (s : State) : Out :=
  match s.env with
  | [] => s.runInstr
  | .run :: rest => State.runInstr { s with env := rest }
  | e :: rest => envStep e { s with env := rest }

/-- The environment's events, after one that lets the hart run if any are pending. -/
def runNext : List EnvEvent → List EnvEvent
  | [] => []
  | env => .run :: env

/-- Places bytes at the pc and lets the hart run next, whatever the environment has pending (log 8). -/
def State.placeNext (s : State) (bytes : List Byte) : State := { s.placeBytes 0 bytes with env := runNext s.env }

end Sys2Proof.Machine
end

