-- ==== Sys2Proof/Machine/Step.lean ====
section
/-! DEFINITION. One step of the machine, and where a test places the next instruction. -/

namespace Sys2Proof.Machine

/-- One step: the environment's next event, or, where none is pending, the hart's next instruction (log 20). -/
def step (s : State) : Host.Outcome State Fault Refusal := s.cycle

/-- Places an instruction's table bits where the next step fetches (log 8). -/
def State.withFetchWord (s : State) (nbits w : Nat) : State := s.placeNext (tableBytes nbits w)

end Sys2Proof.Machine
end

