-- ==== Sys2Proof/Safety.lean ====
section
/-! DEFINITION. The terms the statements use: the invariant of spec/10_state.md R71 with the model's own, what an
instruction leaves unchanged, and what a taken trap leaves (spec/60_exceptions.md R360). -/

namespace Sys2Proof.Machine

/-! ### The invariant -/

/-- The bits of an entry that do not exist are 0 (R71). -/
structure Entry.Inv (cfg : Config) (e : Entry) : Prop where
  src : e.src &&& ~~~srcMask cfg = 0
  tgt : e.tgt &&& ~~~tgtMask cfg = 0
  data : e.data &&& ~~~dataMask cfg = 0

/-- The invariants of R71: the bits that do not exist are 0 (CLR is one of them), DEPTH is a supported encoding, WRPTR
is within its implemented bits; and the slots above MAXDEPTH, which do not exist, are zeros (log 38). -/
structure Ctr.Inv (cfg : Config) (c : Ctr) : Prop where
  mctl : c.mctl &&& ~~~(maskM cfg ||| 0xF0000) = 0
  vsctl : c.vsctl &&& ~~~maskV cfg = 0
  depth : ∃ d, depthSupported cfg d = true ∧ depthField c.mctl = depthBits d
  wrptr : c.wrptr.toNat < 2 ^ cfg.wrptrBits.val
  entry : ∀ p : Fin 256, (c.arr.get p).Inv cfg
  absent : ∀ p : Fin 256, maxDepth cfg ≤ p.val → c.arr.get p = Entry.zero

/-- The machine's invariant: R71, a mode the hart has, a legal `mstatus.MPP`, an aligned pc within XLEN, the canonical
form of the memory, and no held bit in the state enables but 55 and 60. -/
structure State.Inv (s : State) : Prop where
  cfg : s.cfg.wf = true
  ctr : s.ctr.Inv s.cfg
  mode : hasMode s.cfg s.mode = true
  mpp : s.mstatus.mpp ∈ legalPrivs s.cfg
  pc : trunc s.x s.pc = s.pc
  align : s.pc &&& ~~~epcMask s.cfg = 0
  mem : Memory.wf s.mem = true
  mstateen : s.mstateen0 &&& ~~~stateenMask = 0
  hstateen : s.hstateen0 &&& ~~~stateenMask = 0

/-! ### Frames -/

/-- The state no instruction but a CSR write changes: the configuration, the delegation, pending, state-enable and
select registers, the environment's events, and every byte of memory. -/
structure State.BaseKept (s t : State) : Prop where
  cfg : t.cfg = s.cfg
  medeleg : t.medeleg = s.medeleg
  mideleg : t.mideleg = s.mideleg
  hedeleg : t.hedeleg = s.hedeleg
  hideleg : t.hideleg = s.hideleg
  mip : t.mip = s.mip
  mstateen0 : t.mstateen0 = s.mstateen0
  hstateen0 : t.hstateen0 = s.hstateen0
  miselect : t.miselect = s.miselect
  siselect : t.siselect = s.siselect
  vsiselect : t.vsiselect = s.vsiselect
  env : t.env = s.env
  mem : ∀ a, memRead t.mem a = memRead s.mem a

/-- The mode, the status registers and the trap registers. -/
structure State.PrivKept (s t : State) : Prop where
  mode : t.mode = s.mode
  mstatus : t.mstatus = s.mstatus
  hstatus : t.hstatus = s.hstatus
  vsstatus : t.vsstatus = s.vsstatus
  mtrap : t.mtrap = s.mtrap
  strap : t.strap = s.strap
  vstrap : t.vstrap = s.vstrap

/-- Every general register keeps all its bits, except perhaps `rd`. -/
def State.RegsKept (s t : State) (rd : Reg) : Prop := ∀ r : Reg, r ≠ rd → t.regs.get r.toFin = s.regs.get r.toFin

/-- What a retired transfer does: execution goes on at the target, the recorder has seen `Retire`, and nothing else
changes but the link register. -/
structure State.Transferred (s t : State) (k : Kind) (target : Word) (rd : Reg) : Prop where
  pc : t.pc = target
  ctr : t.ctr = (s.ctr.onRetire s.cfg k s.mode s.pc target (drawMisp s.draws)).settle s.cfg s.mode
  regs : s.RegsKept t rd
  priv : s.PrivKept t
  base : s.BaseKept t

/-- What a taken trap does (R360): the target mode, the handler address, the saved registers, the status registers, the
recorder's `Trap`, and nothing else. -/
structure State.TrapTaken (s t : State) (isInterrupt : Bool) (e : Exc) : Prop where
  mode : t.mode = s.trapTarget isInterrupt e.cause
  pc : t.pc = handlerAddr (xlenOf s.cfg t.mode) (s.trapRegs t.mode).tvec isInterrupt e.cause
  epc : (t.trapRegs t.mode).epc = s.pc
  cause : (t.trapRegs t.mode).cause = causeValue (xlenOf s.cfg t.mode) isInterrupt e.cause
  tval : (t.trapRegs t.mode).tval = e.tval
  tvec : (t.trapRegs t.mode).tvec = (s.trapRegs t.mode).tvec
  toM : t.mode = .M →
    t.mstatus = { s.mstatus with
      mpp := privOf s.mode, mpv := isV s.mode, mpie := s.mstatus.mie, mie := false }
    ∧ t.hstatus = s.hstatus ∧ t.vsstatus = s.vsstatus ∧ t.strap = s.strap ∧ t.vstrap = s.vstrap
  toS : t.mode = .S →
    t.mstatus = { s.mstatus with spp := privOf s.mode == .S, spie := s.mstatus.sie, sie := false }
    ∧ t.hstatus = { s.hstatus with spv := isV s.mode }
    ∧ t.vsstatus = s.vsstatus ∧ t.mtrap = s.mtrap ∧ t.vstrap = s.vstrap
  toVS : t.mode = .VS →
    t.vsstatus = { spp := s.mode == .VS, spie := s.vsstatus.sie, sie := false }
    ∧ t.mstatus = s.mstatus ∧ t.hstatus = s.hstatus ∧ t.mtrap = s.mtrap ∧ t.strap = s.strap
  ctr : t.ctr = (s.ctr.onTrap s.cfg isInterrupt e.cause s.mode t.mode s.pc t.pc (drawMisp s.draws)).settle s.cfg t.mode
  regs : t.regs = s.regs
  base : s.BaseKept t

/-- What a trap return does besides its status registers (R361): the mode, the pc, the recorder's `TrapReturn`, and
nothing else. -/
structure State.TrapReturned (s t : State) (tm : Mode) (target : Word) : Prop where
  mode : t.mode = tm
  pc : t.pc = target
  ctr : t.ctr = (s.ctr.onTrapReturn s.cfg s.mode tm s.pc target (drawMisp s.draws)).settle s.cfg tm
  regs : t.regs = s.regs
  mtrap : t.mtrap = s.mtrap
  strap : t.strap = s.strap
  vstrap : t.vstrap = s.vstrap
  hstatus : t.hstatus = s.hstatus
  base : s.BaseKept t

/-- What a CSR instruction that is allowed does: `u` is the state its write leaves, or `s` where it writes nothing, and
`old` the value read before. -/
structure State.CsrDone (s t u : State) (rd : Reg) (old : Word) : Prop where
  dest : t.reg rd = if rd = 0 then 0 else old
  pc : t.pc = trunc s.x (s.pc + 4)
  ctr : t.ctr = u.ctr.settle s.cfg s.mode
  regs : s.RegsKept t rd
  priv : u.PrivKept t
  base : u.BaseKept t
  mode : t.mode = s.mode
  env : t.env = s.env
  mem : ∀ a, memRead t.mem a = memRead s.mem a

/-- The kind CLASSIFY gives a retired instruction (R9, R233): what the parameter says of the instruction and of whether
it jumped, and the default table's kind where it says nothing (log 31). -/
def State.classified (s : State) (i : Instr) (jumped : Bool) (table : Kind) : Kind :=
  match s.cfg.classify.lookup (i, jumped) with
  | some k => k
  | none => table

/-- A target the hart can jump to: any, with the C extension, else a multiple of 4 (section 4 of
spec/45_transfer_type_filtering.md; bit 0 of a target is always 0). -/
def State.Aligned (s : State) (target : Word) : Prop := s.cfg.hasC = true ∨ target.extractLsb' 0 2 = 0

/-- What a conditional branch does whose outcome is `o`, classified as the 32-bit branch `i`: taken to an aligned target,
or on to the next instruction, `len` bytes on; no register is written. -/
def State.Branches (s : State) (i : Instr) (o : Out) (taken : Prop) (target : Word) (len : Nat) : Prop :=
  (taken → s.Aligned target →
    ∃ t, o = .next t ∧ s.Transferred t (s.classified i true .tkbr) target 0 ∧ t.regs = s.regs)
    ∧ (¬taken →
      ∃ t, o = .next t ∧ s.Transferred t (s.classified i false .ntbr) (trunc s.x (s.pc + BitVec.ofNat 64 len)) 0
        ∧ t.regs = s.regs)

/-- What a branch does on whose target the hart cannot go on: taken, an instruction-address-misaligned exception; not
taken, on to the next instruction without one. -/
def State.TrapsIfTaken (s : State) (i : Instr) (taken : Prop) (target : Word) : Prop :=
  (taken → ∃ t, exec i s = .next t ∧ s.TrapTaken t false ⟨0, target⟩)
    ∧ (¬taken →
      ∃ t, exec i s = .next t ∧ s.Transferred t (s.classified i false .ntbr) (trunc s.x (s.pc + 4)) 0
        ∧ t.regs = s.regs)

/-- A register read as a two's-complement XLEN-bit number (R264). -/
def State.signedReg (s : State) (r : Reg) : Int :=
  match s.x with
  | .x32 => ((s.reg r).setWidth 32).toInt
  | .x64 => (s.reg r).toInt

/-! ### Registers of the hart and their bits -/

/-- The position of every optional control field (R25). -/
def ctlFieldBits : List (CtlField × Nat) :=
  [(.mte, 8), (.ste, 9), (.rasemu, 10), (.bpfrz, 11), (.lcofifrz, 12), (.excinh, 33), (.intrinh, 34), (.tretinh, 35),
    (.ntbren, 36), (.tkbrinh, 37), (.eten, 38), (.indcallinh, 40), (.dircallinh, 41), (.indjumpinh, 42),
    (.dirjumpinh, 43), (.corswapinh, 44), (.retinh, 45), (.indojmpinh, 46), (.dirojmpinh, 47)]

/-- The address `xepc` gives, as the host adjusts it: even, and without the C extension a multiple of 4 (log 18). -/
def State.returnAddress (s : State) (epc : Word) : Word :=
  epc &&& (if s.cfg.hasC then ~~~(1 : Word) else ~~~(3 : Word))

/-- The trap registers that the S names (`stvec`, `sepc`, ...) reach: the VS ones from V=1. -/
def State.sTrap (s : State) : TrapRegs := if isV s.mode then s.vstrap else s.strap

/-- The word that shows the bits of a list of places, and 0 elsewhere. -/
def Shows (w : Word) (places : List (Nat × Bool)) : Prop :=
  ∀ k, k < 64 → w.getLsbD k = ((places.lookup k).getD false)

/-- What an explicit read gives of the host's status, trap, delegation and pending registers (logs 10, 11, 18, 46): the
low X bits of each, the status fields at the family's places, and from V=1 the VS registers under the S names. -/
structure State.HostReads (s : State) : Prop where
  trap : ∀ p ∈ [(Csr.mtvec, s.mtrap.tvec), (.mepc, s.returnAddress s.mtrap.epc), (.mcause, s.mtrap.cause),
    (.mtval, s.mtrap.tval), (.stvec, s.sTrap.tvec), (.sepc, s.returnAddress s.sTrap.epc), (.scause, s.sTrap.cause),
    (.stval, s.sTrap.tval), (.vstvec, s.vstrap.tvec), (.vsepc, s.returnAddress s.vstrap.epc),
    (.vscause, s.vstrap.cause), (.vstval, s.vstrap.tval)], s.readCsr p.1 = trunc s.x p.2
  held : ∀ p ∈ [(Csr.medeleg, s.medeleg), (.mideleg, s.mideleg), (.hedeleg, s.hedeleg), (.hideleg, s.hideleg),
    (.mip, s.mip), (.mstateen0, s.mstateen0), (.hstateen0, s.hstateen0), (.miselect, s.miselect),
    (.vsiselect, s.vsiselect), (.siselect, if isV s.mode then s.vsiselect else s.siselect)],
    s.readCsr p.1 = trunc s.x p.2
  mstatus : ∃ w, s.readCsr .mstatus = trunc s.x w ∧ s.readCsr .mstatush = w >>> 32
    ∧ Shows w [(1, s.mstatus.sie), (3, s.mstatus.mie), (5, s.mstatus.spie), (7, s.mstatus.mpie), (8, s.mstatus.spp),
      (11, s.mstatus.mpp != .U), (12, s.mstatus.mpp == .M), (22, s.mstatus.tsr), (39, s.mstatus.mpv)]
  sstatus : isV s.mode = false →
    Shows (s.readCsr .sstatus) [(1, s.mstatus.sie), (5, s.mstatus.spie), (8, s.mstatus.spp)]
  vsstatus : Shows (s.readCsr .vsstatus) [(1, s.vsstatus.sie), (5, s.vsstatus.spie), (8, s.vsstatus.spp)]
  guest : isV s.mode = true → s.readCsr .sstatus = s.readCsr .vsstatus
  hstatus : Shows (s.readCsr .hstatus) [(7, s.hstatus.spv), (22, s.hstatus.vtsr)]

/-- What an explicit write of an X-bit value `v` does to the host's status, trap, delegation and pending registers,
where X is MXLEN (logs 10 to 12, 17, 18, 36, 46): the register alone changes, to `v` in the bits it holds. -/
structure State.HostWrites (s : State) (v : Word) : Prop where
  mtvec : s.writeCsr .mtvec v = { s with mtrap := { s.mtrap with tvec := (s.writeCsr .mtvec v).mtrap.tvec } }
    ∧ (v.getLsbD 1 = false → (s.writeCsr .mtvec v).mtrap.tvec = v)
    ∧ (v.getLsbD 1 = true → (s.writeCsr .mtvec v).mtrap.tvec = v &&& ~~~(3 : Word)
      ∨ (s.writeCsr .mtvec v).mtrap.tvec = (v &&& ~~~(3 : Word)) ||| 1)
  mepc : s.writeCsr .mepc v = { s with mtrap := { s.mtrap with epc := s.returnAddress v } }
  mcause : s.writeCsr .mcause v = { s with mtrap := { s.mtrap with cause := v } }
  mtval : s.writeCsr .mtval v = { s with mtrap := { s.mtrap with tval := v } }
  stvec : isV s.mode = false →
    s.writeCsr .stvec v = { s with strap := { s.strap with tvec := (s.writeCsr .stvec v).strap.tvec } }
      ∧ (v.getLsbD 1 = false → (s.writeCsr .stvec v).strap.tvec = v)
  sepc : isV s.mode = false → s.writeCsr .sepc v = { s with strap := { s.strap with epc := s.returnAddress v } }
  scause : isV s.mode = false → s.writeCsr .scause v = { s with strap := { s.strap with cause := v } }
  stval : isV s.mode = false → s.writeCsr .stval v = { s with strap := { s.strap with tval := v } }
  vstvec : s.writeCsr .vstvec v = { s with vstrap := { s.vstrap with tvec := (s.writeCsr .vstvec v).vstrap.tvec } }
    ∧ (v.getLsbD 1 = false → (s.writeCsr .vstvec v).vstrap.tvec = v)
  vsepc : s.writeCsr .vsepc v = { s with vstrap := { s.vstrap with epc := s.returnAddress v } }
  vscause : s.writeCsr .vscause v = { s with vstrap := { s.vstrap with cause := v } }
  vstval : s.writeCsr .vstval v = { s with vstrap := { s.vstrap with tval := v } }
  guest : isV s.mode = true → ∀ p ∈ [(Csr.sstatus, Csr.vsstatus), (.stvec, .vstvec), (.sepc, .vsepc),
    (.scause, .vscause), (.stval, .vstval)], s.writeCsr p.1 v = s.writeCsr p.2 v
  mstatus : s.writeCsr .mstatus v = { s with mstatus := { (s.writeCsr .mstatus v).mstatus with
      mie := v.getLsbD 3
      mpie := v.getLsbD 7
      sie := s.cfg.hasS && v.getLsbD 1
      spie := s.cfg.hasS && v.getLsbD 5
      spp := s.cfg.hasS && v.getLsbD 8
      tsr := s.cfg.hasS && v.getLsbD 22
      mpv := if s.x = .x64 then s.cfg.hasH && v.getLsbD 39 else s.mstatus.mpv } }
  mpp : ((s.writeCsr .mstatus v).mstatus.mpp = .M
      ∨ (s.writeCsr .mstatus v).mstatus.mpp = .S ∧ (s.cfg.hasS || s.cfg.hasH) = true
      ∨ (s.writeCsr .mstatus v).mstatus.mpp = .U ∧ (s.cfg.hasU || s.cfg.hasH) = true)
    ∧ (v.extractLsb' 11 2 = 0b11#2 → (s.writeCsr .mstatus v).mstatus.mpp = .M)
    ∧ (v.extractLsb' 11 2 = 0b01#2 → (s.cfg.hasS || s.cfg.hasH) = true → (s.writeCsr .mstatus v).mstatus.mpp = .S)
    ∧ (v.extractLsb' 11 2 = 0b00#2 → (s.cfg.hasU || s.cfg.hasH) = true → (s.writeCsr .mstatus v).mstatus.mpp = .U)
  mstatush : s.writeCsr .mstatush v = { s with mstatus := { s.mstatus with mpv := s.cfg.hasH && v.getLsbD 7 } }
  sstatus : isV s.mode = false → s.writeCsr .sstatus v =
    { s with mstatus := { s.mstatus with sie := v.getLsbD 1, spie := v.getLsbD 5, spp := v.getLsbD 8 } }
  vsstatus : s.writeCsr .vsstatus v =
    { s with vsstatus := { sie := v.getLsbD 1, spie := v.getLsbD 5, spp := v.getLsbD 8 } }
  hstatus : s.writeCsr .hstatus v = { s with hstatus := { spv := v.getLsbD 7, vtsr := v.getLsbD 22 } }
  medeleg : s.writeCsr .medeleg v = { s with medeleg := (s.writeCsr .medeleg v).medeleg }
    ∧ ∀ k, k < xbits s.x → (s.writeCsr .medeleg v).medeleg.getLsbD k =
      if k = 11 then s.medeleg.getLsbD k else v.getLsbD k
  mideleg : s.writeCsr .mideleg v = { s with mideleg := (s.writeCsr .mideleg v).mideleg }
    ∧ ∀ k, k < xbits s.x → (s.writeCsr .mideleg v).mideleg.getLsbD k = v.getLsbD k
  hedeleg : s.writeCsr .hedeleg v = { s with hedeleg := (s.writeCsr .hedeleg v).hedeleg }
    ∧ ∀ k, k < xbits s.x → (s.writeCsr .hedeleg v).hedeleg.getLsbD k =
      if k ∈ [9, 10, 11, 20, 21, 22, 23] then s.hedeleg.getLsbD k else v.getLsbD k
  hideleg : s.writeCsr .hideleg v = { s with hideleg := (s.writeCsr .hideleg v).hideleg }
    ∧ ∀ k, k < xbits s.x → (s.writeCsr .hideleg v).hideleg.getLsbD k = v.getLsbD k
  mip : s.writeCsr .mip v = { s with mip := (s.writeCsr .mip v).mip }
    ∧ ∀ k, k < 64 → (s.writeCsr .mip v).mip.getLsbD k =
      if k = 13 ∨ k ∈ [1, 5, 9] ∧ s.cfg.hasS = true then v.getLsbD k else s.mip.getLsbD k

/-! ### Logical entries -/

/-- Logical entry `i`, below the depth: `i` records older than the newest (R151). -/
def Ctr.entry (c : Ctr) (i : Nat) : Entry := c.arr.get (c.phys i)

/-- The records of a list pushed one after another, the first one first. -/
def Ctr.pushAll (cfg : Config) (c : Ctr) (es : List Entry) : Ctr := es.foldl (fun c e => c.push cfg e) c

/-- V of an entry (R51). -/
def Entry.valid (e : Entry) : Bool := e.src.getLsbD 0

/-- A cycle-count code that saturated: CCM and the implemented bits of CCE are 1 (R282). -/
def ccFull (cfg : Config) : Nat × Nat := (2 ^ cfg.cceBits.val - 1, 0xFFF)

/-- CCE and CCM of a code (R281). -/
def ccParts (code : BitVec 16) : Nat × Nat := ((code.extractLsb' 12 4).toNat, (code.extractLsb' 0 12).toNat)

/-- The count a code stands for (R281). -/
def ccValue (code : BitVec 16) : Nat := ccDecode (ccParts code).1 (ccParts code).2

/-- The bytes at the pc decode to an instruction. -/
def State.Fetches (s : State) (i : Instr) : Prop :=
  ∃ bytes rest, s.fetchBytes = some bytes ∧ decode bytes = .ok (i, rest)

end Sys2Proof.Machine

/-- The six CSR instructions. -/
def Sys2Proof.Instr.isCsr : Sys2Proof.Instr → Bool
  | .csrrw _ _ _ | .csrrs _ _ _ | .csrrc _ _ _ | .csrrwi _ _ _ | .csrrsi _ _ _ | .csrrci _ _ _ => true
  | .jal _ _ | .jalr _ _ _ | .beq _ _ _ | .bne _ _ _ | .blt _ _ _ | .bge _ _ _ | .bltu _ _ _ | .bgeu _ _ _ => false
  | .cj _ | .cjal _ | .cjr _ | .cjalr _ | .cbeqz _ _ | .cbnez _ _ | .cebreak => false
  | .mret | .sret | .ecall | .ebreak => false
end

