-- ==== Sys2Proof/Certificates/Slice0/Obligations.lean ====
section
/-! DEFINITION. The statements about the model; OBLIGATIONS.json says of each which rule of spec/ it rests on. -/

section

open Sys2Proof Sys2Proof.Machine

/-! ### Encoding and fetching -/

/-- Every well-formed instruction's bytes decode to it, whatever follows them (R104 to R108). -/
def Obligations.DecodeEncodeRoundTrip : Prop :=
  ∀ (i : Instr) (rest : List Byte), i.wf = true → decode (encode i ++ rest) = .ok (i, rest)

/-- Whatever decodes is well-formed, and its bytes are the encoding of what it decodes to (R104 to R108). -/
def Obligations.DecodedIsWellFormed : Prop :=
  ∀ (bytes : List Byte) (i : Instr) (rest : List Byte),
    decode bytes = .ok (i, rest) → i.wf = true ∧ bytes = encode i ++ rest

/-- A word of each family, as the spec's examples give it, decodes to its instruction. -/
def Obligations.SpecExampleWordsDecode : Prop :=
  decodeTableWord 32 0x38129073 = some (.csrrw 0 0x381 5)
    ∧ decodeTableWord 32 0x38302573 = some (.csrrs 10 0x383 0)
    ∧ decodeTableWord 32 0x3813F073 = some (.csrrci 0 0x381 7)
    ∧ decodeTableWord 32 0xFF9FF06F = some (.jal 0 (-8))
    ∧ decodeTableWord 32 0x004503E7 = some (.jalr 7 10 4)
    ∧ decodeTableWord 32 0xFEB55EE3 = some (.bge 10 11 (-4))
    ∧ decodeTableWord 16 0xBFF5 = some (.cj (-4))
    ∧ decodeTableWord 16 0x9282 = some (.cjalr 5)
    ∧ decodeTableWord 16 0xFC75 = some (.cbnez 8 (-4))
    ∧ decodeTableWord 32 0x30200073 = some .mret

/-- Longer encodings, quadrant 0, the unused branch funct3 values and `c.jr x0` are refused by name (R105, R106,
R270). -/
def Obligations.ReservedEncodingsRefused : Prop :=
  (∀ (b0 b1 : Byte) (rest : List Byte), b0.extractLsb' 0 5 = 0b11111#5 →
      decode (b0 :: b1 :: rest) = .error .longerThan32)
    ∧ (∀ w : BitVec 16, w.extractLsb' 0 2 = 0b00#2 → decodeEncoding (.half w) = .error .notInTable16)
    ∧ (∀ w : BitVec 32, w.extractLsb' 0 7 = 0b1100011#7 → w.extractLsb' 13 2 = 0b01#2 →
      decodeEncoding (.word w) = .error .notInTable32)
    ∧ decodeEncoding (.half 0x8002) = .error .reservedCJr

/-- When the bytes at the pc decode to an instruction, the step is that instruction's meaning: with no event pending
it runs at the state itself, and a pending `run` event is used up first. The list of events is the model's choice (log
20). -/
def Obligations.StepRunsDecodedInstruction : Prop :=
  ∀ (s : State) (i : Instr), s.Fetches i →
    (s.env = [] → step s = exec i s)
      ∧ (∀ es, s.env = .run :: es → step s = exec i { s with env := es })

/-- The encoding of a well-formed instruction, placed at the pc, is what the hart fetches. How a program comes to
memory is the model's choice (logs 7, 8). -/
def Obligations.PlacedInstructionIsFetched : Prop :=
  ∀ (s : State) (i : Instr), i.wf = true → (s.placeNext (encode i)).Fetches i

/-! ### Whole-machine rules -/

/-- Every step keeps the invariant: R71, a mode the hart has, a legal MPP, an aligned pc within XLEN, canonical
memory. What goes beyond R71 is the model's own (logs 7, 11, 35, 38, 42, 43). -/
def Obligations.StepKeepsInvariant : Prop :=
  ∀ s t : State, s.Inv → step s = .next t → t.Inv

/-- The invariant holds right after reset (a choice of the model: logs 2, 4, 5). -/
def Obligations.ResetMeetsInvariant : Prop := State.reset.Inv

/-- No step, the Reset event among them, changes the parameters of the implementation or a byte of memory. That
parameters and memory stand in the state is the model's choice (logs 2, 7), and so is that memory survives Reset (log
6, unsafe). -/
def Obligations.StepKeepsConfigAndMemory : Prop :=
  ∀ s t : State, step s = .next t → t.cfg = s.cfg ∧ ∀ a, memRead t.mem a = memRead s.mem a

/-- An instruction that is no CSR instruction changes neither control register and never clears FROZEN; on a frozen
recorder it moves and writes nothing that a CSR shows. -/
def Obligations.OnlyCsrInstructionsReconfigure : Prop :=
  ∀ (i : Instr) (s t : State), i.isCsr = false → exec i s = .next t →
    t.ctr.mctl = s.ctr.mctl ∧ t.ctr.vsctl = s.ctr.vsctl
      ∧ (s.ctr.frozen = true →
        t.ctr.frozen = true ∧ t.ctr.arr = s.ctr.arr ∧ t.ctr.wrptr = s.ctr.wrptr ∧ t.ctr.wrap = s.ctr.wrap)

/-- In U-mode and VU-mode no instruction changes the mode but by a trap, and a trap enters M-, S- or VS-mode. The
delegation is log 17. -/
def Obligations.UserModeLeavesOnlyByTrap : Prop :=
  ∀ (i : Instr) (s t : State), s.mode = .U ∨ s.mode = .VU → exec i s = .next t → t.mode ≠ s.mode →
    (∃ e, s.TrapTaken t false e) ∧ (t.mode = .M ∨ t.mode = .S ∨ t.mode = .VS)

/-! ### The environment's events -/

/-- A cycle elapses: in an enabled mode, not frozen, the count grows by one; otherwise the count's validity is lost.
The event is the spec's decision D24 (log 20). -/
def Obligations.TickCountsCycles : Prop :=
  ∀ (s : State) (es : List EnvEvent), s.env = .tick :: es →
    step s = .next { s with
      env := es
      ctr :=
        if s.cfg.hasCc = false then s.ctr
        else if s.mode ≠ .Debug ∧ s.ctr.enabled s.mode = true ∧ s.ctr.frozen = false then
          { s.ctr with ccCount := s.ctr.ccCount + 1 }
        else { s.ctr with ccOk := false } }

/-- The counter stops: `cc_ok` becomes 0 and nothing else changes. -/
def Obligations.CounterStopClearsValidity : Prop :=
  ∀ (s : State) (es : List EnvEvent), s.env = .counterStop :: es →
    step s = .next { s with env := es, ctr := { s.ctr with ccOk := !s.cfg.hasCc && s.ctr.ccOk } }

/-- What is applied after every event: outside an enabled mode, or frozen, the count's validity is lost; otherwise
nothing changes. When it is applied is the spec's decision D36 (log 33). -/
def Obligations.StoppedCounterIsInvalid : Prop :=
  ∀ (cfg : Config) (c : Ctr) (m : Mode), cfg.hasCc = true →
    (c.enabled m = false ∨ c.frozen = true → c.settle cfg m = { c with ccOk := false })
      ∧ (c.enabled m = true → c.frozen = false → c.settle cfg m = c)

/-- Debug Mode: entry and exit make no record and move nothing, every transfer, trap and trap return there is ignored
by the recorder, whichever instruction or event makes it, and the cycle counter does not run. That entry keeps the pc
and every register of the hart, and that an exit takes its mode and its address, cut and aligned as a return address,
from the event and keeps the rest, is the model's choice (log 41); so is where a trap or a return there goes (log 21).
-/
def Obligations.DebugModeRecordsNothing : Prop :=
  (∀ (s : State) (es : List EnvEvent), s.env = .debugEntry :: es →
      step s = .next { s with env := es, mode := .Debug, ctr := { s.ctr with ccOk := !s.cfg.hasCc && s.ctr.ccOk } })
    ∧ (∀ (s : State) (es : List EnvEvent) (m : Mode) (pc : Word), s.env = .debugExit m pc :: es → s.mode = .Debug →
      m ≠ .Debug → hasMode s.cfg m = true →
      step s = .next { s with
        env := es
        mode := m
        pc := trunc (xlenOf s.cfg m) (s.returnAddress pc)
        ctr := { s.ctr with ccOk := s.ctr.ccOk && (!s.cfg.hasCc || s.ctr.enabled m && !s.ctr.frozen) } })
    ∧ (∀ (cfg : Config) (c : Ctr) (k : Kind) (pc target : Word) (misp : Bool),
      c.onRetire cfg k .Debug pc target misp = c)
    ∧ (∀ (cfg : Config) (c : Ctr) (isInt : Bool) (cause : BitVec 6) (sm tm : Mode) (epc handler : Word) (misp : Bool),
      sm = .Debug ∨ tm = .Debug →
      c.onTrap cfg isInt cause sm tm epc handler misp = c ∧ c.onTrapReturn cfg sm tm epc handler misp = c)
    ∧ (∀ (s t : State) (i : Instr), s.mode = .Debug → i.isCsr = false ∨ t.mode ≠ .Debug → exec i s = .next t →
      t.ctr = { s.ctr with ccOk := s.ctr.ccOk && (!s.cfg.hasCc || s.ctr.enabled t.mode && !s.ctr.frozen) })
    ∧ (∀ (s : State) (es : List EnvEvent) (e : EnvEvent), s.mode = .Debug → s.env = e :: es →
      ((∃ cause, e = .interrupt cause) ∨ ∃ cause tval, e = .exception cause tval) →
      ∃ t, step s = .next t
        ∧ t.ctr = { s.ctr with ccOk := s.ctr.ccOk && (!s.cfg.hasCc || s.ctr.enabled t.mode && !s.ctr.frozen) })
    ∧ (∀ (cfg : Config) (c : Ctr), cfg.hasCc = true →
      (c.onTick cfg .Debug).ccCount = c.ccCount ∧ (c.onTick cfg .Debug).ccOk = false)

/-- After the Reset event the hart is in M-mode with interrupts disabled and `mstateen0` = 0, and of the recorder
nothing is known but the invariants of R71. The host's part is general knowledge that the spec marks as such (logs 5,
6). -/
def Obligations.ResetEventLeavesInvariant : Prop :=
  ∀ (s : State) (es : List EnvEvent), s.env = .reset :: es → s.cfg.wf = true →
    ∃ t, step s = .next t ∧ t.mode = .M ∧ t.mstatus.mie = false ∧ t.mstateen0 = 0 ∧ t.ctr.Inv t.cfg

/-! ### Taking a trap and returning from one -/

/-- A trap is taken: the target mode's `xepc`, `xcause`, `xtval`, `xPP`, `xPIE`, `xIE` (and MPV or SPV) as R360 says,
the pc at the handler, and everything else unchanged; so is an interrupt or a host exception that the environment
delivers (log 20), while a change of the pending bits alone makes no event (log 46). The handler is the base of
`xtvec`, 4 * cause further for a vectored interrupt (log 36); that `xcause` has the interrupt bit on top of its XLEN
bits and the code below is the family's (log 47). The sequence is the one that R360 gives from general knowledge (logs
15, 17). The `xtval` of a host exception is R351's: the pc or 0, the instruction's bits or 0, or 0, by its cause; that
it is 0 for every interrupt, that another cause's value is the event's cut to MXLEN, and that the event gives the bits
the memory does not hold, is the model's choice (log 16), and so are traps in Debug Mode (log 21) and that the whole
pc goes to `xepc` (log 48). -/
def Obligations.TrapEntrySavesAndEnters : Prop :=
  (∀ (x : Xlen) (tvec : Word) (isInt : Bool) (cause : BitVec 6),
      handlerAddr x tvec isInt cause = trunc x ((tvec &&& ~~~(3 : Word))
        + (if isInt = true ∧ tvec.getLsbD 0 = true then BitVec.ofNat 64 (4 * cause.toNat) else 0))
      ∧ ∀ k, k < 64 → (causeValue x isInt cause).getLsbD k =
        (if k = (if x = .x32 then 31 else 63) then isInt else decide (k < 6) && cause.getLsbD k))
    ∧ (∀ (s : State) (es : List EnvEvent) (bits : Word), s.env = .pending bits :: es →
      step s = .next { s with env := es, mip := trunc s.cfg.mxlen bits })
    ∧ ∀ s : State,
    (∀ (isInt : Bool) (e : Exc), ∃ t, s.takeTrap isInt e = .next t ∧ s.TrapTaken t isInt e)
      ∧ (∀ (es : List EnvEvent) (cause : BitVec 6), s.env = .interrupt cause :: es →
        ∃ t, step s = .next t ∧ State.TrapTaken { s with env := es } t true ⟨cause, 0⟩)
      ∧ (∀ (es : List EnvEvent) (cause : BitVec 6) (tval : Word), s.env = .exception cause tval :: es →
        ∃ t v, step s = .next t ∧ State.TrapTaken { s with env := es } t false ⟨cause, v⟩
          ∧ (cause = 3 → v = if s.cfg.tvalPc then s.pc else 0)
          ∧ (cause = 2 ∨ cause = 22 → s.cfg.tvalBits = false → v = 0)
          ∧ (cause = 2 ∨ cause = 22 → s.cfg.tvalBits = true → ∀ bytes enc rest, s.fetchBytes = some bytes →
            splitEncoding bytes = .ok (enc, rest) → v = enc.bits)
          ∧ (cause = 8 ∨ cause = 9 ∨ cause = 10 ∨ cause = 11 → v = 0)
          ∧ (cause.toNat ∉ [2, 3, 8, 9, 10, 11, 22] → v = trunc s.cfg.mxlen tval))

/-- A trap enters M-mode unless the delegation registers send it lower; never from M-mode or Debug Mode (log 21), and
to VS-mode only from VS- or VU-mode when both levels delegate it. The spec names the registers; how they decide is log
17. -/
def Obligations.DelegationChoosesTarget : Prop :=
  ∀ (s : State) (isInt : Bool) (cause : BitVec 6),
    let m := if isInt then s.mideleg else s.medeleg
    let h := if isInt then s.hideleg else s.hedeleg
    (s.trapTarget isInt cause = .VS ↔
        s.mode ≠ .M ∧ s.cfg.hasS = true ∧ m.getLsbD cause.toNat = true ∧ isV s.mode = true ∧ s.cfg.hasH = true
          ∧ h.getLsbD cause.toNat = true)
      ∧ (s.trapTarget isInt cause = .M ↔ s.mode = .M ∨ s.mode = .Debug ∨ s.cfg.hasS = false ∨ m.getLsbD cause.toNat = false)
      ∧ (s.trapTarget isInt cause = .M ∨ s.trapTarget isInt cause = .S ∨ s.trapTarget isInt cause = .VS)

/-- `ecall` traps, with cause 8 from U- and VU-mode, 9 from S-, 10 from VS- and 11 from M-mode, and `xtval` 0. That
Debug Mode calls as M-mode is the model's choice (log 21). -/
def Obligations.EcallTraps : Prop :=
  ∀ (s : State) (cause : BitVec 6),
    (s.mode = .U ∨ s.mode = .VU) ∧ cause = 8 ∨ s.mode = .S ∧ cause = 9 ∨ s.mode = .VS ∧ cause = 10
      ∨ (s.mode = .M ∨ s.mode = .Debug) ∧ cause = 11 →
    ∃ t, exec .ecall s = .next t ∧ s.TrapTaken t false ⟨cause, 0⟩

/-- `ebreak`, and `c.ebreak` on a hart with the C extension, raise a breakpoint exception, cause 3, at their own pc.
What `xtval` gets is a parameter (log 16); Debug Mode is log 21. -/
def Obligations.BreakpointsTrap : Prop :=
  ∀ s : State,
    (∃ t, exec .ebreak s = .next t ∧ s.TrapTaken t false ⟨3, if s.cfg.tvalPc then s.pc else 0⟩)
      ∧ (s.cfg.hasC = true →
        ∃ t, exec .cebreak s = .next t ∧ s.TrapTaken t false ⟨3, if s.cfg.tvalPc then s.pc else 0⟩)

/-- `mret` in M-mode: the mode of MPP (with V from MPV), MIE from MPIE, MPIE 1, MPP the lowest mode, the pc from
`mepc`; the status registers of the other modes and the trap registers are unchanged. How the host adjusts `mepc`, and
that MPV is kept, is the model's (log 18, unsafe); the mode where the hart lacks the one that MPP names is log 42.
That Debug Mode returns as M-mode is log 21; that the pc is cut to the XLEN of the mode returned to is log 43. -/
def Obligations.MretReturns : Prop :=
  ∀ s : State, s.mode = .M ∨ s.mode = .Debug →
    ∃ t tm, exec .mret s = .next t
      ∧ tm = (if s.mstatus.mpp = .M then Mode.M
        else if s.cfg.hasH = true ∧ s.mstatus.mpv = true then (if s.mstatus.mpp = .S then Mode.VS else Mode.VU)
        else if s.mstatus.mpp = .U ∧ s.cfg.hasU = true then Mode.U
        else if s.cfg.hasS = true then Mode.S else Mode.M)
      ∧ s.TrapReturned t tm (trunc (xlenOf s.cfg tm) (s.returnAddress (trunc s.cfg.mxlen s.mtrap.epc)))
      ∧ t.vsstatus = s.vsstatus
      ∧ t.mstatus =
        { s.mstatus with mie := s.mstatus.mpie, mpie := true, mpp := if s.cfg.hasU then Priv.U else Priv.M }

/-- `sret` in M-mode (with S-mode) and in S-mode (TSR = 0): the mode of SPP, with V from SPV, SIE from SPIE, the pc
from `sepc`. In VS-mode (VTSR = 0): the mode of `vsstatus.SPP`, the pc from `vsepc`. SPIE 1 and SPP U, that
`hstatus.SPV` is kept (unsafe), and how the host adjusts `sepc` and `vsepc` are the model's (log 18); the mode where
the hart lacks the one that SPP names is log 42. That Debug Mode returns as M-mode is log 21. That `sret` uses the low
bits of `sepc` or `vsepc` that its own mode's XLEN covers is log 48 (unsafe), and the cut to the XLEN of the mode
returned to log 43. -/
def Obligations.SretReturns : Prop :=
  (∀ s : State, (s.mode = .M ∨ s.mode = .Debug) ∧ s.cfg.hasS = true ∨ s.mode = .S ∧ s.mstatus.tsr = false →
      ∃ t tm, exec .sret s = .next t
        ∧ tm = (if s.cfg.hasH = true ∧ s.hstatus.spv = true then (if s.mstatus.spp then Mode.VS else Mode.VU)
          else if s.mstatus.spp = false ∧ s.cfg.hasU = true then Mode.U
          else if s.cfg.hasS = true then Mode.S else Mode.M)
        ∧ s.TrapReturned t tm (trunc (xlenOf s.cfg tm) (s.returnAddress (trunc s.x s.strap.epc)))
        ∧ t.vsstatus = s.vsstatus
        ∧ t.mstatus = { s.mstatus with sie := s.mstatus.spie, spie := true, spp := false })
    ∧ (∀ s : State, s.mode = .VS → s.hstatus.vtsr = false →
      ∃ t tm, exec .sret s = .next t
        ∧ tm = (if s.vsstatus.spp then Mode.VS else Mode.VU)
        ∧ s.TrapReturned t tm (trunc (xlenOf s.cfg tm) (s.returnAddress (trunc s.x s.vstrap.epc)))
        ∧ t.mstatus = s.mstatus
        ∧ t.vsstatus = { sie := s.vsstatus.spie, spie := true, spp := false })

/-- `mret` below M-mode, `sret` in U-mode, in S-mode with TSR and in M-mode without S-mode (log 19; in Debug Mode too,
log 21) raise an illegal instruction exception; `sret` in VU-mode and in VS-mode with VTSR a virtual instruction
exception. What `xtval` gets is a parameter (log 16). -/
def Obligations.ForbiddenReturnsTrap : Prop :=
  (∀ s : State, s.mode ≠ .M → s.mode ≠ .Debug →
      ∃ t, exec .mret s = .next t ∧ s.TrapTaken t false ⟨2, if s.cfg.tvalBits then 0x30200073 else 0⟩)
    ∧ (∀ s : State, s.mode = .U ∨ s.mode = .S ∧ s.mstatus.tsr = true ∨ (s.mode = .M ∨ s.mode = .Debug) ∧ s.cfg.hasS = false →
      ∃ t, exec .sret s = .next t ∧ s.TrapTaken t false ⟨2, if s.cfg.tvalBits then 0x10200073 else 0⟩)
    ∧ (∀ s : State, s.mode = .VU ∨ s.mode = .VS ∧ s.hstatus.vtsr = true →
      ∃ t, exec .sret s = .next t ∧ s.TrapTaken t false ⟨22, if s.cfg.tvalBits then 0x10200073 else 0⟩)

/-! ### Jumps and branches -/

/-- `jal`: x[rd] gets pc + 4 (x0 stays 0), the pc the sum, and the recorder sees the kind that CLASSIFY gives, by
default that of `rd` in R233. How the parameter is held is log 31. -/
def Obligations.JalTransfers : Prop :=
  ∀ (s : State) (rd : Reg) (off : BitVec 21) (target : Word),
    target = trunc s.x (s.pc + off.signExtend 64) → s.Aligned target →
    ∃ t, exec (.jal rd off) s = .next t
      ∧ s.Transferred t (s.classified (.jal rd off) true
        (if rd = 0 then .dirjump else if rd = 1 ∨ rd = 5 then .dircall else .dirojmp)) target rd
      ∧ t.reg rd = if rd = 0 then 0 else trunc s.x (s.pc + 4)

/-- `jalr`: the target is the sum of the old x[rs1] and the immediate without its bit 0, x[rd] gets pc + 4, and the
recorder sees the kind that CLASSIFY gives, by default that of the register numbers in R233. How the parameter is held
is log 31. -/
def Obligations.JalrTransfers : Prop :=
  ∀ (s : State) (rd rs1 : Reg) (imm : BitVec 12) (target : Word) (k : Kind),
    target = trunc s.x (s.reg rs1 + imm.signExtend 64) &&& ~~~(1 : Word) → s.Aligned target →
    k = (if (rd = 1 ∨ rd = 5) ∧ (rs1 = 1 ∨ rs1 = 5) ∧ rd ≠ rs1 then Kind.corswap
      else if rd = 1 ∨ rd = 5 then Kind.indcall
      else if rs1 = 1 ∨ rs1 = 5 then Kind.ret
      else if rd = 0 then Kind.indjump else Kind.indojmp) →
    ∃ t, exec (.jalr rd rs1 imm) s = .next t ∧ s.Transferred t (s.classified (.jalr rd rs1 imm) true k) target rd
      ∧ t.reg rd = if rd = 0 then 0 else trunc s.x (s.pc + 4)

/-- The six branches: equal, not equal, less and not less, signed and unsigned; taken to pc + offset, else on to pc +
4. The target of a branch that is not taken is the spec's decision D9 (log 34); how CLASSIFY is held is log 31. -/
def Obligations.BranchesTransfer : Prop :=
  ∀ (s : State) (rs1 rs2 : Reg) (off : BitVec 13) (target : Word), target = trunc s.x (s.pc + off.signExtend 64) →
    s.Branches (.beq rs1 rs2 off) (exec (.beq rs1 rs2 off) s) (s.reg rs1 = s.reg rs2) target 4
      ∧ s.Branches (.bne rs1 rs2 off) (exec (.bne rs1 rs2 off) s) (s.reg rs1 ≠ s.reg rs2) target 4
      ∧ s.Branches (.blt rs1 rs2 off) (exec (.blt rs1 rs2 off) s) (s.signedReg rs1 < s.signedReg rs2) target 4
      ∧ s.Branches (.bge rs1 rs2 off) (exec (.bge rs1 rs2 off) s) (s.signedReg rs2 ≤ s.signedReg rs1) target 4
      ∧ s.Branches (.bltu rs1 rs2 off) (exec (.bltu rs1 rs2 off) s) ((s.reg rs1).toNat < (s.reg rs2).toNat) target 4
      ∧ s.Branches (.bgeu rs1 rs2 off) (exec (.bgeu rs1 rs2 off) s) ((s.reg rs2).toNat ≤ (s.reg rs1).toNat) target 4

/-- The compressed transfers on a hart with the C extension are the instructions they expand to, 2 bytes long: `c.j`,
`c.jal` (XLEN = 32), `c.jr` and `c.jalr` with a link of pc + 2; `c.beqz` and `c.bnez` taken to pc + offset, else on to
pc + 2. Each is classified as its expansion. How the parameter is held is log 31. -/
def Obligations.CompressedTransfers : Prop :=
  ∀ s : State, s.cfg.hasC = true →
    (∀ (off : BitVec 12) (target : Word), target = trunc s.x (s.pc + off.signExtend 64) →
        (∃ t, exec (.cj off) s = .next t
            ∧ s.Transferred t (s.classified (.jal 0 (off.signExtend 21)) true .dirjump) target 0)
          ∧ (s.x = .x32 →
            ∃ t, exec (.cjal off) s = .next t
              ∧ s.Transferred t (s.classified (.jal 1 (off.signExtend 21)) true .dircall) target 1
              ∧ t.reg 1 = trunc s.x (s.pc + 2)))
      ∧ (∀ (rs1 : Reg) (target : Word), target = s.reg rs1 &&& ~~~(1 : Word) →
        (∃ t, exec (.cjr rs1) s = .next t
            ∧ s.Transferred t (s.classified (.jalr 0 rs1 0) true (if rs1 = 1 ∨ rs1 = 5 then .ret else .indjump))
              target 0)
          ∧ (∃ t, exec (.cjalr rs1) s = .next t
            ∧ s.Transferred t (s.classified (.jalr 1 rs1 0) true (if rs1 = 5 then .corswap else .indcall)) target 1
            ∧ t.reg 1 = trunc s.x (s.pc + 2)))
      ∧ (∀ (rs1 : Reg) (off : BitVec 9) (target : Word), target = trunc s.x (s.pc + off.signExtend 64) →
        s.Branches (.beq rs1 0 (off.signExtend 13)) (exec (.cbeqz rs1 off) s) (s.reg rs1 = 0) target 2
          ∧ s.Branches (.bne rs1 0 (off.signExtend 13)) (exec (.cbnez rs1 off) s) (s.reg rs1 ≠ 0) target 2)

/-- Without the C extension a jump or taken branch to an address that is no multiple of 4 traps, cause 0, with the
target in `xtval`, and writes no link register; a branch that is not taken does not trap. The check of bits 1:0 is log
37. -/
def Obligations.MisalignedTargetTraps : Prop :=
  ∀ (s : State) (target : Word), s.cfg.hasC = false → target.extractLsb' 0 2 ≠ 0 →
    (∀ (rd : Reg) (off : BitVec 21), target = trunc s.x (s.pc + off.signExtend 64) →
        ∃ t, exec (.jal rd off) s = .next t ∧ s.TrapTaken t false ⟨0, target⟩)
      ∧ (∀ (rd rs1 : Reg) (imm : BitVec 12), target = trunc s.x (s.reg rs1 + imm.signExtend 64) &&& ~~~(1 : Word) →
        ∃ t, exec (.jalr rd rs1 imm) s = .next t ∧ s.TrapTaken t false ⟨0, target⟩)
      ∧ (∀ (rs1 rs2 : Reg) (off : BitVec 13), target = trunc s.x (s.pc + off.signExtend 64) →
        s.TrapsIfTaken (.beq rs1 rs2 off) (s.reg rs1 = s.reg rs2) target
          ∧ s.TrapsIfTaken (.bne rs1 rs2 off) (s.reg rs1 ≠ s.reg rs2) target
          ∧ s.TrapsIfTaken (.blt rs1 rs2 off) (s.signedReg rs1 < s.signedReg rs2) target
          ∧ s.TrapsIfTaken (.bge rs1 rs2 off) (s.signedReg rs2 ≤ s.signedReg rs1) target
          ∧ s.TrapsIfTaken (.bltu rs1 rs2 off) ((s.reg rs1).toNat < (s.reg rs2).toNat) target
          ∧ s.TrapsIfTaken (.bgeu rs1 rs2 off) ((s.reg rs2).toNat ≤ (s.reg rs1).toNat) target)

/-- On a hart without the C extension the seven compressed instructions are illegal (log 22). -/
def Obligations.CompressedIllegalWithoutC : Prop :=
  ∀ (s : State) (i : Instr), s.cfg.hasC = false → i.len = 2 →
    ∃ t, exec i s = .next t ∧ s.TrapTaken t false ⟨2, if s.cfg.tvalBits then (encodeInstr i).bits else 0⟩

/-- Where the model stops by name: `c.jal`'s pattern with XLEN = 64 is the host's `c.addiw` (log 22), an `*ireg*`
register with its select outside 0x200 to 0x2FF is not CTR's (log 13; that the low XLEN bits decide is log 14). -/
def Obligations.StopsByName : Prop :=
  (∀ (s : State) (off : BitVec 12), s.cfg.hasC = true → s.x = .x64 → exec (.cjal off) s = .refused .cAddiw)
    ∧ (∀ (s : State) (i : Instr) (n : CsrNum) (c : Csr), csrOf n = some c → s.checkAccess c = .pass →
      s.selectOutside c = true →
      (∃ rd rs1, i = .csrrw rd n rs1 ∨ i = .csrrs rd n rs1 ∨ i = .csrrc rd n rs1 ∨ i = .csrrwi rd n rs1
        ∨ i = .csrrsi rd n rs1 ∨ i = .csrrci rd n rs1) →
      exec i s = .refused .indirectSelect)
    ∧ (∀ (s : State) (r : IReg),
      (s.selectOutside (.mireg r) = true ↔ ¬(0x200 ≤ (trunc s.x s.miselect).toNat ∧ (trunc s.x s.miselect).toNat < 0x300))
        ∧ (s.selectOutside (.vsireg r) = true ↔
          ¬(0x200 ≤ (trunc s.x s.vsiselect).toNat ∧ (trunc s.x s.vsiselect).toNat < 0x300))
        ∧ (isV s.mode = false → (s.selectOutside (.sireg r) = true ↔
          ¬(0x200 ≤ (trunc s.x s.siselect).toNat ∧ (trunc s.x s.siselect).toNat < 0x300)))
        ∧ (isV s.mode = true → s.selectOutside (.sireg r) = s.selectOutside (.vsireg r)))

/-! ### The CSR instructions and the access check -/

/-- `csrrw` and `csrrwi`, allowed: the value of x[rs1] or of the immediate is written, and x[rd] gets the old value.
Which host registers exist is log 10. -/
def Obligations.CsrWriteInstructions : Prop :=
  ∀ (s : State) (n : CsrNum) (c : Csr) (rd : Reg), csrOf n = some c → s.checkAccess c = .pass →
    s.selectOutside c = false →
    (∀ rs1 : Reg, ∃ t, exec (.csrrw rd n rs1) s = .next t
        ∧ s.CsrDone t (s.writeCsr c (s.reg rs1)) rd (s.readCsr c))
      ∧ (∀ uimm : BitVec 5, ∃ t, exec (.csrrwi rd n uimm) s = .next t
        ∧ s.CsrDone t (s.writeCsr c (uimm.setWidth 64)) rd (s.readCsr c))

/-- `csrrs` and `csrrsi`, allowed: the old value with the bits set is written, nothing at all when the source is x0 or
0, and x[rd] gets the old value. Which host registers exist is log 10. -/
def Obligations.CsrSetInstructions : Prop :=
  ∀ (s : State) (n : CsrNum) (c : Csr) (rd : Reg), csrOf n = some c → s.checkAccess c = .pass →
    s.selectOutside c = false →
    (∀ rs1 : Reg, ∃ t, exec (.csrrs rd n rs1) s = .next t
        ∧ s.CsrDone t (if rs1 = 0 then s else s.writeCsr c (s.readCsr c ||| s.reg rs1)) rd (s.readCsr c))
      ∧ (∀ uimm : BitVec 5, ∃ t, exec (.csrrsi rd n uimm) s = .next t
        ∧ s.CsrDone t (if uimm = 0 then s else s.writeCsr c (s.readCsr c ||| uimm.setWidth 64)) rd (s.readCsr c))

/-- `csrrc` and `csrrci`, allowed: the old value with the bits cleared is written, nothing at all when the source is
x0 or 0, and x[rd] gets the old value. Which host registers exist is log 10. -/
def Obligations.CsrClearInstructions : Prop :=
  ∀ (s : State) (n : CsrNum) (c : Csr) (rd : Reg), csrOf n = some c → s.checkAccess c = .pass →
    s.selectOutside c = false →
    (∀ rs1 : Reg, ∃ t, exec (.csrrc rd n rs1) s = .next t
        ∧ s.CsrDone t (if rs1 = 0 then s else s.writeCsr c (s.readCsr c &&& ~~~s.reg rs1)) rd (s.readCsr c))
      ∧ (∀ uimm : BitVec 5, ∃ t, exec (.csrrci rd n uimm) s = .next t
        ∧ s.CsrDone t (if uimm = 0 then s else s.writeCsr c (s.readCsr c &&& ~~~(uimm.setWidth 64 : Word))) rd
          (s.readCsr c))

/-- A CSR instruction whose register the access check forbids, or whose number names no register (log 10), traps with
cause 2 or 22 and changes nothing else: no CSR and no destination register. What `xtval` gets is a parameter (log 16).
-/
def Obligations.ForbiddenCsrAccessTraps : Prop :=
  ∀ (s : State) (i : Instr) (n : CsrNum),
    (∃ rd rs1, i = .csrrw rd n rs1 ∨ i = .csrrs rd n rs1 ∨ i = .csrrc rd n rs1 ∨ i = .csrrwi rd n rs1
      ∨ i = .csrrsi rd n rs1 ∨ i = .csrrci rd n rs1) →
    (csrOf n = none ∨ (∃ c, csrOf n = some c ∧ s.checkAccess c = .illegal) →
        ∃ t, exec i s = .next t ∧ s.TrapTaken t false ⟨2, if s.cfg.tvalBits then (encodeInstr i).bits else 0⟩)
      ∧ ((∃ c, csrOf n = some c ∧ s.checkAccess c = .virtual) →
        ∃ t, exec i s = .next t ∧ s.TrapTaken t false ⟨22, if s.cfg.tvalBits then (encodeInstr i).bits else 0⟩)

/-- The access check by its outcome, of every register: which accesses are illegal, which are virtual, and that all
others pass; the numbers of the registers, their groups, which are CTR's and which bit 60 covers. The order of the
cases is the spec's decision D30, and Debug Mode as M-mode D16 (log 21); that the check decides the host's registers
too, which of them exist, and their numbers and groups, is the model's choice (logs 10, 44). -/
def Obligations.AccessCheckOutcomes : Prop :=
  (∀ s : State, ∀ p ∈ [((0x381 : CsrNum), Csr.mctrcontrol, Group.m, false), (0x382, .mctrcontrolh, .m, true),
      (0x383, .mctrstatus, .m, false), (0x181, .sctrcontrol, .s, false), (0x182, .sctrcontrolh, .s, true),
      (0x183, .sctrstatus, .s, false), (0x281, .vsctrcontrol, .vs, false), (0x282, .vsctrcontrolh, .vs, true)],
      csrOf p.1 = some p.2.1 ∧ csrGroup p.2.1 = p.2.2.1 ∧ csrHigh p.2.1 = p.2.2.2 ∧ csrIndirect p.2.1 = false
        ∧ s.csrIsCtr p.2.1 = true)
    ∧ (∀ p ∈ [((0x350 : CsrNum), Csr.miselect, Group.m), (0x351, .mireg .src, .m), (0x352, .mireg .tgt, .m),
      (0x353, .mireg .data, .m), (0x355, .mireg .zero, .m), (0x356, .mireg .zero, .m), (0x357, .mireg .zero, .m),
      (0x150, .siselect, .s), (0x151, .sireg .src, .s), (0x152, .sireg .tgt, .s), (0x153, .sireg .data, .s),
      (0x155, .sireg .zero, .s), (0x156, .sireg .zero, .s), (0x157, .sireg .zero, .s), (0x250, .vsiselect, .vs),
      (0x251, .vsireg .src, .vs), (0x252, .vsireg .tgt, .vs), (0x253, .vsireg .data, .vs), (0x255, .vsireg .zero, .vs),
      (0x256, .vsireg .zero, .vs), (0x257, .vsireg .zero, .vs)],
      csrOf p.1 = some p.2.1 ∧ csrGroup p.2.1 = p.2.2 ∧ csrHigh p.2.1 = false ∧ csrIndirect p.2.1 = true)
    ∧ (∀ s : State, ∀ p ∈ [((0x300 : CsrNum), Csr.mstatus, Group.m, false), (0x310, .mstatush, .m, true),
      (0x302, .medeleg, .m, false), (0x303, .mideleg, .m, false), (0x305, .mtvec, .m, false), (0x341, .mepc, .m, false),
      (0x342, .mcause, .m, false), (0x343, .mtval, .m, false), (0x344, .mip, .m, false), (0x30C, .mstateen0, .m, false),
      (0x31C, .mstateen0h, .m, true), (0x100, .sstatus, .s, false), (0x105, .stvec, .s, false), (0x141, .sepc, .s, false),
      (0x142, .scause, .s, false), (0x143, .stval, .s, false), (0x600, .hstatus, .vs, false),
      (0x602, .hedeleg, .vs, false), (0x603, .hideleg, .vs, false), (0x60C, .hstateen0, .vs, false),
      (0x61C, .hstateen0h, .vs, true), (0x200, .vsstatus, .vs, false), (0x205, .vstvec, .vs, false),
      (0x241, .vsepc, .vs, false), (0x242, .vscause, .vs, false), (0x243, .vstval, .vs, false)],
      csrOf p.1 = some p.2.1 ∧ csrGroup p.2.1 = p.2.2.1 ∧ csrHigh p.2.1 = p.2.2.2 ∧ csrIndirect p.2.1 = false
        ∧ s.csrIsCtr p.2.1 = false)
    ∧ (∀ s : State, ∀ c ∈ [Csr.miselect, .siselect, .vsiselect], s.csrIsCtr c = false)
    ∧ (∀ (s : State) (r : IReg), s.csrIsCtr (.mireg r) = !s.selectOutside (.mireg r)
      ∧ s.csrIsCtr (.sireg r) = !s.selectOutside (.sireg r) ∧ s.csrIsCtr (.vsireg r) = !s.selectOutside (.vsireg r))
    ∧ ∀ (s : State) (c : Csr),
    let off (r : Word) (b : Nat) : Prop := s.cfg.hasSmstateen = true ∧ r.getLsbD b = false
    let bad : Prop :=
      (csrHigh c = true ∧ s.x = .x64) ∨ (csrGroup c = .s ∧ s.cfg.hasS = false)
        ∨ (csrGroup c = .vs ∧ s.cfg.hasH = false)
        ∨ (c ∈ [Csr.medeleg, .mideleg] ∧ s.cfg.hasS = false)
        ∨ (c ∈ [Csr.mstateen0, .mstateen0h, .hstateen0, .hstateen0h] ∧ s.cfg.hasSmstateen = false)
        ∨ (s.mode ≠ .M ∧ s.mode ≠ .Debug
          ∧ (csrGroup c = .m ∨ (s.csrIsCtr c = true ∧ off s.mstateen0 55)
            ∨ (csrIndirect c = true ∧ off s.mstateen0 60) ∨ s.mode = .U))
    let virt : Prop :=
      (csrGroup c = .vs ∧ isV s.mode = true) ∨ (csrGroup c = .s ∧ s.mode = .VU)
        ∨ (csrGroup c = .s ∧ s.mode = .VS
          ∧ ((s.csrIsCtr c = true ∧ off s.hstateen0 55) ∨ (csrIndirect c = true ∧ off s.hstateen0 60)))
    (s.checkAccess c = .illegal ↔ bad) ∧ (s.checkAccess c = .virtual ↔ ¬bad ∧ virt)

/-! ### The control and status registers -/

/-- `mctrcontrol`: a read gives the low X bits of the stored value; a write changes the implemented bits of that half,
legalises DEPTH, and clears when bit 7 is written 1; without that it keeps `mctrstatus` and the hidden counter, and
the array unless DEPTH changes. `vsctrcontrol` and everything outside the recorder is unchanged. The implemented bits
are M, S and U with their modes, and the optional fields of the implementation. -/
def Obligations.MctrcontrolReadsAndWrites : Prop :=
  ∀ (s : State) (v : Word), trunc s.x v = v →
    (∀ k, (maskM s.cfg).getLsbD k = true ↔
        k = 0 ∨ k = 1 ∧ s.cfg.hasS = true ∨ k = 2 ∧ s.cfg.hasU = true ∨ ∃ p ∈ ctlFieldBits, p.1 ∈ s.cfg.implM ∧ p.2 = k)
      ∧ s.readCsr .mctrcontrol = trunc s.x s.ctr.mctl
      ∧ (∀ k, k < 16 ∨ 20 ≤ k ∧ k < 64 →
        (s.writeCsr .mctrcontrol v).ctr.mctl.getLsbD k =
          if (maskM s.cfg).getLsbD k = true ∧ k < xbits s.x then v.getLsbD k else s.ctr.mctl.getLsbD k)
      ∧ depthField (s.writeCsr .mctrcontrol v).ctr.mctl = depthBits (legalizeDepth s.cfg (v.extractLsb' 16 4))
      ∧ (v.getLsbD 7 = true →
        (s.writeCsr .mctrcontrol v).ctr.statusWord = 0
          ∧ ∀ p : Fin 256, (s.writeCsr .mctrcontrol v).ctr.arr.get p = ⟨0, 0, 0⟩)
      ∧ (v.getLsbD 7 = false →
        (s.writeCsr .mctrcontrol v).ctr.statusWord = s.ctr.statusWord
          ∧ (s.writeCsr .mctrcontrol v).ctr = { s.ctr with
            mctl := (s.writeCsr .mctrcontrol v).ctr.mctl, arr := (s.writeCsr .mctrcontrol v).ctr.arr }
          ∧ ((s.writeCsr .mctrcontrol v).ctr.depth = s.ctr.depth →
            (s.writeCsr .mctrcontrol v).ctr.arr = s.ctr.arr))
      ∧ s.writeCsr .mctrcontrol v = { s with ctr := { (s.writeCsr .mctrcontrol v).ctr with vsctl := s.ctr.vsctl } }
      ∧ (s.cfg.hasCc = false → (s.writeCsr .mctrcontrol v).ctr.ccCount = s.ctr.ccCount
        ∧ (s.writeCsr .mctrcontrol v).ctr.ccOk = s.ctr.ccOk)

/-- The high halves, where XLEN is 32: `mctrcontrolh` reads bits 63:32 and writes the implemented bits there; no
clear, no depth change, and nothing else is written; `vsctrcontrolh` is that of `vsctrcontrol`; `sctrcontrolh` is the
first with V=0 and the second with V=1. -/
def Obligations.HighHalvesReadAndWrite : Prop :=
  ∀ (s : State) (v : Word), s.x = .x32 → trunc .x32 v = v →
    s.readCsr .mctrcontrolh = s.ctr.mctl >>> 32 ∧ s.readCsr .vsctrcontrolh = s.ctr.vsctl >>> 32
      ∧ (isV s.mode = false → s.readCsr .sctrcontrolh = s.readCsr .mctrcontrolh
        ∧ s.writeCsr .sctrcontrolh v = s.writeCsr .mctrcontrolh v)
      ∧ (isV s.mode = true → s.readCsr .sctrcontrolh = s.readCsr .vsctrcontrolh
        ∧ s.writeCsr .sctrcontrolh v = s.writeCsr .vsctrcontrolh v)
      ∧ (∀ k, k < 64 → (s.writeCsr .mctrcontrolh v).ctr.mctl.getLsbD k =
        if (maskM s.cfg).getLsbD k = true ∧ 32 ≤ k then v.getLsbD (k - 32) else s.ctr.mctl.getLsbD k)
      ∧ s.writeCsr .mctrcontrolh v = { s with ctr := { s.ctr with mctl := (s.writeCsr .mctrcontrolh v).ctr.mctl } }
      ∧ (∀ k, k < 64 → (s.writeCsr .vsctrcontrolh v).ctr.vsctl.getLsbD k =
        if (maskV s.cfg).getLsbD k = true ∧ 32 ≤ k then v.getLsbD (k - 32) else s.ctr.vsctl.getLsbD k)
      ∧ s.writeCsr .vsctrcontrolh v = { s with ctr := { s.ctr with vsctl := (s.writeCsr .vsctrcontrolh v).ctr.vsctl } }

/-- `sctrcontrol` with V=0 shows `mctrcontrol` without M and MTE and cannot change them; in all else a write leaves
what a write of `mctrcontrol` leaves: the clear, the depth change, and without them `mctrstatus`, the array and the
hidden counter as they were. Nothing outside the recorder is written. -/
def Obligations.SctrcontrolHidesMAndMte : Prop :=
  ∀ (s : State) (v : Word), isV s.mode = false → trunc s.x v = v →
    s.readCsr .sctrcontrol = trunc s.x s.ctr.mctl &&& ~~~(0x101 : Word)
      ∧ (s.writeCsr .sctrcontrol v).ctr.mctl.getLsbD 0 = s.ctr.mctl.getLsbD 0
      ∧ (s.writeCsr .sctrcontrol v).ctr.mctl.getLsbD 8 = s.ctr.mctl.getLsbD 8
      ∧ (∀ k, k ≠ 0 → k ≠ 8 → k < 64 →
        (s.writeCsr .sctrcontrol v).ctr.mctl.getLsbD k = (s.writeCsr .mctrcontrol v).ctr.mctl.getLsbD k)
      ∧ (v.getLsbD 7 = true →
        (s.writeCsr .sctrcontrol v).ctr.statusWord = 0
          ∧ ∀ p : Fin 256, (s.writeCsr .sctrcontrol v).ctr.arr.get p = ⟨0, 0, 0⟩)
      ∧ (v.getLsbD 7 = false →
        (s.writeCsr .sctrcontrol v).ctr = { s.ctr with
            mctl := (s.writeCsr .sctrcontrol v).ctr.mctl, arr := (s.writeCsr .sctrcontrol v).ctr.arr }
          ∧ ((s.writeCsr .sctrcontrol v).ctr.depth = s.ctr.depth → (s.writeCsr .sctrcontrol v).ctr.arr = s.ctr.arr))
      ∧ s.writeCsr .sctrcontrol v = { s with ctr := { (s.writeCsr .mctrcontrol v).ctr with
        mctl := (s.writeCsr .sctrcontrol v).ctr.mctl } }

/-- `vsctrcontrol` by its own number: DEPTH reads as `mctrcontrol`'s and bit 7 as 0; a write changes the implemented
bits only, clears nothing and leaves everything else alone. The implemented bits are, with H, VS, VU and the optional
fields of the implementation but MTE; that mask is the spec's own inference, which R121 marks so. -/
def Obligations.VsctrcontrolNeverClears : Prop :=
  ∀ (s : State) (v : Word), trunc s.x v = v →
    (∀ k, (maskV s.cfg).getLsbD k = true ↔ s.cfg.hasH = true
        ∧ (k = 1 ∨ k = 2 ∨ ∃ p ∈ ctlFieldBits, p.1 ∈ s.cfg.implVS ∧ p.1 ≠ .mte ∧ p.2 = k))
      ∧ s.readCsr .vsctrcontrol = trunc s.x (setDepthField s.ctr.vsctl (depthField s.ctr.mctl) &&& ~~~(0x80 : Word))
      ∧ (∀ k, k < 64 → (s.writeCsr .vsctrcontrol v).ctr.vsctl.getLsbD k =
        if (maskV s.cfg).getLsbD k = true ∧ k < xbits s.x then v.getLsbD k else s.ctr.vsctl.getLsbD k)
      ∧ s.writeCsr .vsctrcontrol v = { s with ctr := { s.ctr with vsctl := (s.writeCsr .vsctrcontrol v).ctr.vsctl } }

/-- A guest's `sctrcontrol` is `vsctrcontrol`: the same value read, the same bits written, `mctrcontrol` untouched; a
1 in bit 7 clears the array and `mctrstatus`, and a 0 writes nothing else. -/
def Obligations.GuestSctrcontrolWritesVsctl : Prop :=
  ∀ (s : State) (v : Word), isV s.mode = true → trunc s.x v = v →
    s.readCsr .sctrcontrol = s.readCsr .vsctrcontrol
      ∧ (s.writeCsr .sctrcontrol v).ctr.vsctl = (s.writeCsr .vsctrcontrol v).ctr.vsctl
      ∧ (s.writeCsr .sctrcontrol v).ctr.mctl = s.ctr.mctl
      ∧ (v.getLsbD 7 = true →
        (s.writeCsr .sctrcontrol v).ctr.statusWord = 0
          ∧ ∀ p : Fin 256, (s.writeCsr .sctrcontrol v).ctr.arr.get p = ⟨0, 0, 0⟩)
      ∧ s.writeCsr .sctrcontrol v = { s with ctr := { (s.writeCsr .sctrcontrol v).ctr with mctl := s.ctr.mctl } }
      ∧ (v.getLsbD 7 = false → s.writeCsr .sctrcontrol v = s.writeCsr .vsctrcontrol v)
      ∧ (s.cfg.hasCc = false → (s.writeCsr .sctrcontrol v).ctr.ccCount = s.ctr.ccCount
        ∧ (s.writeCsr .sctrcontrol v).ctr.ccOk = s.ctr.ccOk)

/-- `mctrstatus` shows FROZEN at bit 15, WRAP at bit 14, the stored WRPTR at bits 7:0 and 0 elsewhere; a write changes
these three (WRPTR within its implemented bits) and nothing else; `sctrstatus` reads and writes alike. That a WRPTR
above the depth is stored as written is the spec's decision D5 (log 27). -/
def Obligations.MctrstatusReadsAndWrites : Prop :=
  ∀ (s : State) (v : Word),
    (∀ k, k < 64 → (s.readCsr .mctrstatus).getLsbD k =
        if k = 15 then s.ctr.frozen else if k = 14 then s.ctr.wrap
        else if k < 8 then s.ctr.wrptr.getLsbD k else false)
      ∧ s.writeCsr .mctrstatus v = { s with ctr := { s.ctr with
        wrptr := (s.writeCsr .mctrstatus v).ctr.wrptr, wrap := v.getLsbD 14, frozen := v.getLsbD 15 } }
      ∧ (s.writeCsr .mctrstatus v).ctr.wrptr.toNat = v.toNat % 2 ^ s.cfg.wrptrBits.val
      ∧ s.writeCsr .sctrstatus v = s.writeCsr .mctrstatus v ∧ s.readCsr .sctrstatus = s.readCsr .mctrstatus

/-- Writing 0b0000 and 0b1111 to DEPTH stores the least and the greatest supported depth, every supported encoding is
stored as written, and what is stored is always supported. What other written values store is a parameter (log 25). -/
def Obligations.DepthWritesAreLegalised : Prop :=
  ∀ cfg : Config, cfg.depthMin.rank ≤ cfg.depthMax.rank →
    legalizeDepth cfg 0b0000 = cfg.depthMin ∧ legalizeDepth cfg 0b1111 = cfg.depthMax
      ∧ (∀ d, depthSupported cfg d = true → legalizeDepth cfg (depthBits d) = d)
      ∧ ∀ v, depthSupported cfg (legalizeDepth cfg v) = true

/-- The mapping from logical to physical entries. For i above 0 it is an inference the spec marks as its own; the
pointer is reduced by decision D5 (log 27). -/
def Obligations.LogicalEntryIsPhysical : Prop :=
  ∀ (c : Ctr) (i : Nat), i < c.depth →
    ((c.phys i).val : Int) = ((c.wrptr.toNat : Int) - 1 - i) % (c.depth : Int)

/-- Reads of the entry registers: the low X bits of the selected entry, 0 at or above the depth and for the fourth to
sixth register; the three paths show one array. -/
def Obligations.EntryRegistersRead : Prop :=
  (∀ e : Entry, e.reg .src = e.src ∧ e.reg .tgt = e.tgt ∧ e.reg .data = e.data ∧ e.reg .zero = 0)
    ∧ ∀ (s : State) (i : Nat) (r : IReg), i < 256 →
    (s.miselect = BitVec.ofNat 64 (0x200 + i) →
        s.readCsr (.mireg r) = if i < s.ctr.depth then trunc s.x ((s.ctr.entry i).reg r) else 0)
      ∧ (s.siselect = BitVec.ofNat 64 (0x200 + i) → isV s.mode = false →
        s.readCsr (.sireg r) = if i < s.ctr.depth then trunc s.x ((s.ctr.entry i).reg r) else 0)
      ∧ (s.vsiselect = BitVec.ofNat 64 (0x200 + i) →
        s.readCsr (.vsireg r) = (if i < s.ctr.depth then trunc s.x ((s.ctr.entry i).reg r) else 0)
          ∧ (isV s.mode = true → s.readCsr (.sireg r) = s.readCsr (.vsireg r)))

/-- A write of an entry register, by any of the three paths, changes that register of that entry alone, and nothing at
or above the depth. `ctrdata` holds the bits that are implemented; an address register holds in its low X bits the
legalised address with V, or with MISP where it exists, and where X is MXLEN nothing above it. Legalisation keeps
valid addresses and makes no invalid one valid; that 0 is valid is log 24. -/
def Obligations.EntryRegistersWrite : Prop :=
  (∀ (cfg : Config) (w : Nat) (a : BitVec 63),
      (legalizeVa cfg w a = a
          ∨ cfg.vaMode = .converting ∧ a ≠ 0 ∧ Config.vaValid a = false
            ∧ legalizeVa cfg w a ≠ 0 ∧ Config.vaValid (legalizeVa cfg w a) = false)
        ∧ (a.toNat < 2 ^ w → (legalizeVa cfg w a).toNat < 2 ^ w))
    ∧ ∀ (s : State) (i : Nat) (v : Word) (path : IReg → Csr),
    path = .mireg ∧ s.miselect = BitVec.ofNat 64 (0x200 + i)
      ∨ path = .sireg ∧ isV s.mode = false ∧ s.siselect = BitVec.ofNat 64 (0x200 + i)
      ∨ path = .sireg ∧ isV s.mode = true ∧ s.vsiselect = BitVec.ofNat 64 (0x200 + i)
      ∨ path = .vsireg ∧ s.vsiselect = BitVec.ofNat 64 (0x200 + i) →
    i < 256 → trunc s.x v = v →
    let after (r : IReg) : State := s.writeCsr (path r) v
    let addr : BitVec 63 := legalizeVa s.cfg (xbits s.x - 1) (v.extractLsb' 1 63)
    (∀ r, s.ctr.depth ≤ i → after r = s) ∧ after .zero = s
      ∧ (i < s.ctr.depth →
        (∀ (r : IReg) (p : Fin 256), p ≠ s.ctr.phys i → (after r).ctr.arr.get p = s.ctr.arr.get p)
        ∧ (∀ r, after r = { s with ctr := { s.ctr with arr := (after r).ctr.arr } })
        ∧ (after .data).ctr.entry i = { s.ctr.entry i with data := ((after .data).ctr.entry i).data }
        ∧ (∀ k, k < 64 → ((after .data).ctr.entry i).data.getLsbD k = (v.getLsbD k
          && (decide (k < 4) && s.cfg.hasType
            || (decide (k = 15) || decide (16 ≤ k ∧ k < 28) || decide (28 ≤ k ∧ k < 28 + s.cfg.cceBits.val))
              && s.cfg.hasCc)))
        ∧ (after .src).ctr.entry i = { s.ctr.entry i with src := ((after .src).ctr.entry i).src }
        ∧ (after .tgt).ctr.entry i = { s.ctr.entry i with tgt := ((after .tgt).ctr.entry i).tgt }
        ∧ trunc s.x ((after .src).ctr.entry i).src = addr ++ BitVec.ofBool (v.getLsbD 0)
        ∧ trunc s.x ((after .tgt).ctr.entry i).tgt = addr ++ BitVec.ofBool (v.getLsbD 0 && s.cfg.hasMisp)
        ∧ (s.x = s.cfg.mxlen → ((after .src).ctr.entry i).src = addr ++ BitVec.ofBool (v.getLsbD 0)
          ∧ ((after .tgt).ctr.entry i).tgt = addr ++ BitVec.ofBool (v.getLsbD 0 && s.cfg.hasMisp))
        ∧ (s.cfg.vaMode = .exact → trunc s.x ((after .src).ctr.entry i).src = v))

/-- The select, state-enable, status, trap, delegation and pending registers: what a read gives, and that a write
changes that register alone, in the bits it holds. A select register holds what is written, a state enable its bits 55
and 60, which with XLEN 32 are bits 23 and 28 of its high half, the low half holding nothing. Which registers these
are, and which bits they hold where, is the model's choice (logs 10, 11, 14, 17, 18, 35, 36, 46); with XLEN below
MXLEN the bits above it are free (log 12), and what is written reads back. -/
def Obligations.SelectAndStateEnableWrites : Prop :=
  (∀ s : State, s.HostReads)
    ∧ (∀ (s : State) (v : Word) (c : Csr), trunc s.x v = v →
      (c ∈ [Csr.miselect, .siselect, .vsiselect, .mcause, .mtval, .scause, .stval, .vscause, .vstval] →
        (s.writeCsr c v).readCsr c = v)
      ∧ (c ∈ [Csr.mtvec, .stvec, .vstvec] → v.getLsbD 1 = false → (s.writeCsr c v).readCsr c = v)
      ∧ (c ∈ [Csr.mepc, .sepc, .vsepc] → (s.writeCsr c v).readCsr c = s.returnAddress v))
    ∧ (∀ (s : State) (v : Word), trunc s.x v = v →
      (s.x = .x64 → s.mstateen0 &&& ~~~stateenMask = 0 →
        s.writeCsr .mstateen0 v = { s with mstateen0 := v &&& stateenMask })
      ∧ (s.x = .x64 → s.hstateen0 &&& ~~~stateenMask = 0 →
        s.writeCsr .hstateen0 v = { s with hstateen0 := v &&& stateenMask })
      ∧ (s.x = .x32 →
        s.writeCsr .mstateen0 v = s ∧ s.writeCsr .hstateen0 v = s
          ∧ s.readCsr .mstateen0h = s.mstateen0 >>> 32 ∧ s.readCsr .hstateen0h = s.hstateen0 >>> 32
          ∧ s.writeCsr .mstateen0h v = { s with mstateen0 := (s.writeCsr .mstateen0h v).mstateen0 }
          ∧ (∀ k, k < 64 → (s.writeCsr .mstateen0h v).mstateen0.getLsbD k =
            if k = 55 then v.getLsbD 23 else if k = 60 then v.getLsbD 28 else s.mstateen0.getLsbD k)
          ∧ s.writeCsr .hstateen0h v = { s with hstateen0 := (s.writeCsr .hstateen0h v).hstateen0 }
          ∧ (∀ k, k < 64 → (s.writeCsr .hstateen0h v).hstateen0.getLsbD k =
            if k = 55 then v.getLsbD 23 else if k = 60 then v.getLsbD 28 else s.hstateen0.getLsbD k)))
    ∧ ∀ (s : State) (v : Word), s.x = s.cfg.mxlen → trunc s.x v = v →
    s.HostWrites v
      ∧ s.writeCsr .miselect v = { s with miselect := v }
      ∧ (isV s.mode = false → s.writeCsr .siselect v = { s with siselect := v })
      ∧ (isV s.mode = true → s.writeCsr .siselect v = { s with vsiselect := v })
      ∧ s.writeCsr .vsiselect v = { s with vsiselect := v }

/-- General register 0 reads 0 and discards writes; another register reads back the XLEN-bit value written to it, and
the others keep all their bits. XLEN is the mode's and never above MXLEN, and Debug Mode has M-mode's (decision D16).
The bits above XLEN are free (log 12). -/
def Obligations.RegisterZeroIsHardwired : Prop :=
  (∀ (x : Xlen) (v : Word), (trunc x v).toNat = v.toNat % 2 ^ (if x = .x32 then 32 else 64))
    ∧ (∀ (cfg : Config) (m : Mode), xlenOf cfg m =
      if cfg.mxlen = .x32 ∨ m = .M ∨ m = .Debug then cfg.mxlen
      else if m = .S then cfg.sxlen else if m = .U then cfg.uxlen else if m = .VS then cfg.vsxlen else cfg.vuxlen)
    ∧ ∀ (s : State) (r : Reg) (v : Word), trunc s.x v = v →
    s.reg 0 = 0 ∧ s.setReg 0 v = s ∧ (r ≠ 0 → (s.setReg r v).reg r = v) ∧ s.RegsKept (s.setReg r v) r

/-! ### Recording -/

/-- `push`: the record is written at the effective write pointer, which moves on by one modulo the depth, WRAP being
set when it leaves depth-1; it becomes logical entry 0 and every older entry moves down by one. The effective pointer
is the spec's decisions D4 and D5 (log 27). -/
def Obligations.PushShiftsEntriesDown : Prop :=
  ∀ (cfg : Config) (c : Ctr) (e : Entry) (p : Fin 256), p.val = c.wrptr.toNat % c.depth →
    c.push cfg e = { c with
        arr := c.arr.set p e
        wrap := c.wrap || decide (p.val = c.depth - 1)
        wrptr := BitVec.ofNat 8 ((p.val + 1) % c.depth)
        ccCount := if cfg.hasCc then 0 else c.ccCount
        ccOk := if cfg.hasCc then true else c.ccOk }
      ∧ (c.push cfg e).wrptr.toNat = (p.val + 1) % c.depth
      ∧ (c.push cfg e).entry 0 = e
      ∧ ∀ i, i + 1 < c.depth → (c.push cfg e).entry (i + 1) = c.entry i

/-- `ras_pop`: logical entry 0 loses V and becomes logical entry depth-1, the others move up by one; WRPTR goes back
by one modulo the depth and WRAP is cleared when it was 0; nothing else but the hidden counter changes. The empty
stack and the count are the spec's decisions D22 and D25 (log 30). -/
def Obligations.PopRotatesEntriesUp : Prop :=
  ∀ (cfg : Config) (c : Ctr),
    (∀ i, i + 1 < c.depth → (c.rasPop cfg).entry i = c.entry (i + 1))
      ∧ (c.rasPop cfg).entry (c.depth - 1) = { c.entry 0 with src := (c.entry 0).src &&& ~~~(1 : Word) }
      ∧ ((c.rasPop cfg).wrptr.toNat : Int) = ((c.wrptr.toNat : Int) - 1) % (c.depth : Int)
      ∧ (c.rasPop cfg).wrap = (c.wrap && decide (c.wrptr.toNat % c.depth ≠ 0))
      ∧ (∀ p, p ≠ c.phys 0 → (c.rasPop cfg).arr.get p = c.arr.get p)
      ∧ (c.rasPop cfg).mctl = c.mctl ∧ (c.rasPop cfg).vsctl = c.vsctl ∧ (c.rasPop cfg).frozen = c.frozen
      ∧ (cfg.hasCc = true → cfg.rasCc = .accumulate →
        (c.rasPop cfg).ccCount = c.ccCount + ccValue ((c.entry 0).data.extractLsb' 16 16)
          ∧ (c.rasPop cfg).ccOk = (c.ccOk && (c.entry 0).data.getLsbD 15 && (c.entry 0).valid))
      ∧ (cfg.hasCc = false ∨ cfg.rasCc = .ccv0 →
        (c.rasPop cfg).ccCount = c.ccCount ∧ (c.rasPop cfg).ccOk = c.ccOk)

/-- `ras_swap`: logical entry 0 is overwritten with a valid record of TYPE 12, and no other entry of the array, no
control register and nothing of `mctrstatus` changes; the hidden counter, where it exists, restarts. That nothing
moves is an inference the spec marks as its own. -/
def Obligations.SwapOverwritesEntryZero : Prop :=
  ∀ (cfg : Config) (c : Ctr) (pc target : BitVec 63) (misp : Bool),
    (c.rasSwap cfg pc target misp).entry 0 =
        (c.rasCcOnPop cfg (c.phys 0)).makeRecord cfg true 0b1100 pc target misp
      ∧ ((c.rasSwap cfg pc target misp).entry 0).valid = true
      ∧ (∀ i, 0 < i → i < c.depth → (c.rasSwap cfg pc target misp).entry i = c.entry i)
      ∧ (∀ p, p ≠ c.phys 0 → (c.rasSwap cfg pc target misp).arr.get p = c.arr.get p)
      ∧ (c.rasSwap cfg pc target misp).statusWord = c.statusWord
      ∧ (c.rasSwap cfg pc target misp).mctl = c.mctl ∧ (c.rasSwap cfg pc target misp).vsctl = c.vsctl
      ∧ (cfg.hasCc = true →
        (c.rasSwap cfg pc target misp).ccCount = 0 ∧ (c.rasSwap cfg pc target misp).ccOk = true)
      ∧ (cfg.hasCc = false →
        (c.rasSwap cfg pc target misp).ccCount = c.ccCount ∧ (c.rasSwap cfg pc target misp).ccOk = c.ccOk)

/-- After a clear and n pushes of valid records the logical entries are the last records, newest first, WRAP says
whether the array is full, and no other entry is valid. R195 is an inference the spec marks as its own. -/
def Obligations.PushesFillFromClear : Prop :=
  ∀ (cfg : Config) (ev : Nat) (c : Ctr) (es : List Entry), (∀ e ∈ es, e.valid = true) →
    let d := (c.clear cfg ev).pushAll cfg es
    (∀ i, (h : i < es.length) → i < c.depth → d.entry i = es[es.length - 1 - i]'(by omega))
      ∧ (∀ i, i < c.depth → ((d.entry i).valid = true ↔ i < es.length))
      ∧ d.wrap = decide (c.depth ≤ es.length) ∧ d.wrptr.toNat = es.length % c.depth

/-- A transfer that is not qualified (its mode inhibited, FROZEN set, or its kind inhibited) changes nothing of the
recorder; a qualified one outside RAS emulation pushes its record: the source PC with V, the target PC with MISP, and
the TYPE, CC and CCV that are implemented. The PCs are cut to XLEN and legalised; the second clause spells the record
out where addresses are not converted (log 24), the last ones what a record holds in every case. -/
def Obligations.RetireRecordsWhenQualified : Prop :=
  ∀ (cfg : Config) (c : Ctr) (k : Kind) (m : Mode) (pc target : Word) (misp : Bool),
    (c.enabled m = false ∨ c.frozen = true ∨ ctlBit (c.ctl m) .rasemu = false ∧ inhibited (c.ctl m) k = true →
      c.onRetire cfg k m pc target misp = c)
    ∧ (c.enabled m = true → c.frozen = false → ctlBit (c.ctl m) .rasemu = false → inhibited (c.ctl m) k = false →
      c.onRetire cfg k m pc target misp = c.push cfg (c.makeRecord cfg false (typeCode k)
        (pcField cfg (xlenOf cfg m) pc) (pcField cfg (xlenOf cfg m) target) misp))
    ∧ (cfg.vaMode = .exact → c.enabled m = true → c.frozen = false → ctlBit (c.ctl m) .rasemu = false →
      inhibited (c.ctl m) k = false →
      c.onRetire cfg k m pc target misp = c.push cfg
        ⟨trunc (xlenOf cfg m) pc ||| 1,
          (trunc (xlenOf cfg m) target &&& ~~~(1 : Word)) ||| (if misp && cfg.hasMisp then 1 else 0),
          (if cfg.hasType then (typeCode k).setWidth 64 else 0)
            ||| (if cfg.hasCc then (ccEncode cfg c.ccCount).setWidth 64 <<< 16 ||| (if c.ccOk then 0x8000 else 0)
              else 0)⟩)
    ∧ (∀ (x : Xlen) (a : Word), pcField cfg x a =
      legalizeVa cfg (if x = .x32 then 31 else 63) ((trunc x a).extractLsb' 1 63))
    ∧ (∀ (ras : Bool) (type : BitVec 4) (s t : BitVec 63), let e := c.makeRecord cfg ras type s t misp
      e.src = s ++ 1#1 ∧ e.tgt = t ++ BitVec.ofBool (misp && cfg.hasMisp)
        ∧ ∀ i, i < 64 → e.data.getLsbD i =
          if i < 4 then cfg.hasType && type.getLsbD i
          else if i = 15 then cfg.hasCc && c.ccOk && !(ras && cfg.rasCc == .ccv0)
          else if 16 ≤ i ∧ i < 32 then cfg.hasCc && (ccEncode cfg c.ccCount).getLsbD (i - 16) else false)

/-- The enable bit of each mode is read from the register that holds it, Debug Mode being inhibited; one bit governs
each kind: bit 36 lets not-taken branches in, bit 32 + TYPE keeps each other kind out. The active control register is
`vsctrcontrol` in VS- and VU-mode, else `mctrcontrol`; a trap or return within one V has that one, and one that
changes V the one of its source or its target, which of them being a parameter (log 29). Each target mode of a trap
has its own opt-in to external traps. -/
def Obligations.EnableAndFilterBits : Prop :=
  (∀ c : Ctr,
      c.enabled .M = c.mctl.getLsbD 0 ∧ c.enabled .S = c.mctl.getLsbD 1 ∧ c.enabled .U = c.mctl.getLsbD 2
        ∧ c.enabled .VS = c.vsctl.getLsbD 1 ∧ c.enabled .VU = c.vsctl.getLsbD 2 ∧ c.enabled .Debug = false)
    ∧ (∀ (c : Ctr) (m : Mode), c.ctl m = if m = .VS ∨ m = .VU then c.vsctl else c.mctl)
    ∧ (∀ (cfg : Config) (c : Ctr) (sm tm : Mode),
      (isV sm = isV tm → c.cfgOf cfg sm tm = c.ctl sm)
        ∧ c.cfgOf cfg sm tm = if cfg.crossV = .source then c.ctl sm else c.ctl tm)
    ∧ (∀ c : Ctr, c.xte .M = c.mctl.getLsbD 8 ∧ c.xte .S = c.mctl.getLsbD 9 ∧ c.xte .VS = c.vsctl.getLsbD 9
      ∧ c.xte .U = false ∧ c.xte .VU = false ∧ c.xte .Debug = false)
    ∧ (∀ m, isV m = true ↔ m = .VS ∨ m = .VU)
    ∧ ∀ (c : Word) (k : Kind),
      inhibited c k = if k = .ntbr then !c.getLsbD 36 else c.getLsbD (32 + (typeCode k).toNat)

/-- The trap table: what a trap that does not freeze records, by the enables of its source and target mode. The type
of an external trap is a parameter (log 26), and so is the governing register of a trap that changes V (log 29). -/
def Obligations.TrapsRecordByModeTable : Prop :=
  ∀ (cfg : Config) (c : Ctr) (isInt : Bool) (cause : BitVec 6) (sm tm : Mode) (epc handler : Word) (misp : Bool),
    sm ≠ .Debug → tm ≠ .Debug → c.frozen = false → ctlBit (c.cfgOf cfg sm tm) .rasemu = false →
    freezes (c.cfgOf cfg sm tm) isInt cause = false →
    let g := c.cfgOf cfg sm tm
    let inh := g.getLsbD (if isInt then 34 else 33)
    let type : BitVec 4 := if isInt then 0b0010 else 0b0001
    let s := pcField cfg (xlenOf cfg sm) epc
    let t := pcField cfg (xlenOf cfg tm) handler
    c.onTrap cfg isInt cause sm tm epc handler misp =
      match c.enabled sm, c.enabled tm with
      | true, true => if inh then c else c.push cfg (c.makeRecord cfg false type s t misp)
      | true, false =>
        if g.getLsbD 38 && c.xte tm then c.push cfg (c.makeRecord cfg false cfg.extTrapType s 0 misp) else c
      | false, true => if inh then c else c.push cfg (c.makeRecord cfg false type 0 t misp)
      | false, false => c

/-- The trap-return table: recorded only from an enabled mode, with target PC 0 toward an inhibited one, unless
TRETINH, RASEMU or FROZEN is set or Debug Mode is concerned. -/
def Obligations.ReturnsRecordByModeTable : Prop :=
  ∀ (cfg : Config) (c : Ctr) (sm tm : Mode) (pc target : Word) (misp : Bool),
    c.onTrapReturn cfg sm tm pc target misp =
      if tm ≠ .Debug ∧ c.enabled sm = true ∧ c.frozen = false ∧ (c.cfgOf cfg sm tm).getLsbD 10 = false
          ∧ (c.cfgOf cfg sm tm).getLsbD 35 = false then
        c.push cfg (c.makeRecord cfg false 0b0011 (pcField cfg (xlenOf cfg sm) pc)
          (if c.enabled tm then pcField cfg (xlenOf cfg tm) target else 0) misp)
      else c

/-- A breakpoint exception with BPFRZ and an LCOFI trap with LCOFIFRZ set FROZEN and change nothing else, whatever the
enables, FROZEN, RASEMU and the filters say; no other trap sets FROZEN. That the freeze asks for no enabled mode is
the spec's decision D11, cause 13 its D23. -/
def Obligations.FreezingTraps : Prop :=
  ∀ (cfg : Config) (c : Ctr) (isInt : Bool) (cause : BitVec 6) (sm tm : Mode) (epc handler : Word) (misp : Bool),
    sm ≠ .Debug → tm ≠ .Debug →
    (isInt = false ∧ cause = 3 ∧ (c.cfgOf cfg sm tm).getLsbD 11 = true
        ∨ isInt = true ∧ cause = 13 ∧ (c.cfgOf cfg sm tm).getLsbD 12 = true →
      c.onTrap cfg isInt cause sm tm epc handler misp = { c with frozen := true })
    ∧ (¬(isInt = false ∧ cause = 3 ∧ (c.cfgOf cfg sm tm).getLsbD 11 = true
        ∨ isInt = true ∧ cause = 13 ∧ (c.cfgOf cfg sm tm).getLsbD 12 = true) →
      (c.onTrap cfg isInt cause sm tm epc handler misp).frozen = c.frozen)

/-- While FROZEN is 1 no transfer, trap or trap return changes anything of the recorder, in any mode; the cycle
counter does not run and its validity is lost. -/
def Obligations.FrozenRecorderIsStill : Prop :=
  ∀ (cfg : Config) (c : Ctr), c.frozen = true →
    (∀ k m pc target misp, c.onRetire cfg k m pc target misp = c)
      ∧ (∀ isInt cause sm tm epc handler misp, c.onTrap cfg isInt cause sm tm epc handler misp = c)
      ∧ (∀ sm tm pc target misp, c.onTrapReturn cfg sm tm pc target misp = c)
      ∧ (∀ m, cfg.hasCc = true → (c.onTick cfg m).ccCount = c.ccCount ∧ (c.onTick cfg m).ccOk = false
        ∧ (c.settle cfg m).ccOk = false)

/-- In RAS emulation mode calls push whatever the filters say, returns pop, swaps overwrite entry 0, and every other
kind changes nothing; nor does a trap that does not freeze, or a trap return, between any two modes, enabled or not.
That traps and trap returns are among the inhibited types is the spec's decision D38. -/
def Obligations.RasEmulationByKind : Prop :=
  ∀ (cfg : Config) (c : Ctr) (pc target : Word) (misp : Bool),
    (∀ (m : Mode) (k : Kind), c.enabled m = true → c.frozen = false → (c.ctl m).getLsbD 10 = true →
      c.onRetire cfg k m pc target misp =
        (let s := pcField cfg (xlenOf cfg m) pc
         let t := pcField cfg (xlenOf cfg m) target
         if k = .indcall then c.push cfg (c.makeRecord cfg true 0b1000 s t misp)
         else if k = .dircall then c.push cfg (c.makeRecord cfg true 0b1001 s t misp)
         else if k = .ret then c.rasPop cfg
         else if k = .corswap then c.rasSwap cfg s t misp
         else c))
    ∧ (∀ sm tm : Mode, (c.cfgOf cfg sm tm).getLsbD 10 = true →
      c.onTrapReturn cfg sm tm pc target misp = c
        ∧ ∀ isInt cause, freezes (c.cfgOf cfg sm tm) isInt cause = false →
          c.onTrap cfg isInt cause sm tm pc target misp = c)

/-- The cycle-count code rounds down: the value it stands for is at most the count, within the granularity of its
exponent unless it saturated; it is monotone, and a count that needs more than the implemented exponent bits gives the
code of all ones. The closed form of the code is an inference the spec marks as its own. -/
def Obligations.CycleCodeRoundsDown : Prop :=
  ∀ (cfg : Config) (n : Nat),
    ccValue (ccEncode cfg n) ≤ n
      ∧ (ccParts (ccEncode cfg n) = ccFull cfg
        ∨ n < ccValue (ccEncode cfg n) + 2 ^ ((ccParts (ccEncode cfg n)).1 - 1))
      ∧ (ccDecode (ccFull cfg).1 (ccFull cfg).2 ≤ n → ccParts (ccEncode cfg n) = ccFull cfg)
      ∧ ∀ m, n ≤ m → ccValue (ccEncode cfg n) ≤ ccValue (ccEncode cfg m)

/-- A write of `mctrcontrol` that changes the depth without CLR keeps `mctrstatus`, `vsctrcontrol` and the hidden
counter, and leaves each entry anything that R71 allows. The slots above MAXDEPTH are the model's (log 38). -/
def Obligations.DepthChangeKeepsStatus : Prop :=
  ∀ (s : State) (v : Word), trunc s.x v = v → v.getLsbD 7 = false →
    (s.writeCsr .mctrcontrol v).ctr.depth ≠ s.ctr.depth →
    (s.writeCsr .mctrcontrol v).ctr.statusWord = s.ctr.statusWord
      ∧ (s.writeCsr .mctrcontrol v).ctr.vsctl = s.ctr.vsctl
      ∧ (s.writeCsr .mctrcontrol v).ctr.ccCount = s.ctr.ccCount ∧ (s.writeCsr .mctrcontrol v).ctr.ccOk = s.ctr.ccOk
      ∧ (∀ p : Fin 256, ((s.writeCsr .mctrcontrol v).ctr.arr.get p).Inv s.cfg)
      ∧ (∀ p : Fin 256, maxDepth s.cfg ≤ p.val → (s.writeCsr .mctrcontrol v).ctr.arr.get p = ⟨0, 0, 0⟩)

end
end

