-- ==== Sys2Proof/Laws/Memory.lean ====
section
/-! SUPPORT. Memory: a read after a write, and the canonical form, which every operation keeps and the reset state
has. -/

namespace Sys2Proof.Machine

theorem memRead_memWrite_same (m : List Host.Cell) (a : Nat) (v : Byte) : memRead (memWrite m a v) a = some v := by
  induction m with
  | nil => simp [memWrite, memRead]
  | cons x m ih =>
    obtain ⟨b, w⟩ := x
    unfold memWrite
    split
    · simp [memRead]
    · split
      · simp [memRead]
      · rename_i h
        simp [memRead, h, ih]

theorem memRead_memWrite_other (m : List Host.Cell) {a b : Nat} (h : b ≠ a) (v : Byte) :
    memRead (memWrite m a v) b = memRead m b := by
  induction m with
  | nil => simp [memWrite, memRead, h]
  | cons x m ih =>
    obtain ⟨c, w⟩ := x
    unfold memWrite
    split
    · simp [memRead, h]
    · split
      · rename_i h'
        subst h'
        simp [memRead, h]
      · simp [memRead, ih]

theorem Memory.wf_tail {x : Host.Cell} {m : List Host.Cell} (h : Memory.wf (x :: m) = true) : Memory.wf m = true := by
  cases m with
  | nil => rfl
  | cons y m =>
    rw [Memory.wf, Bool.and_eq_true] at h
    exact h.2

/-- A list in canonical form stays so under an entry of a lower address. -/
theorem Memory.wf_cons {a b : Nat} {v w : Byte} {m : List Host.Cell} (hab : a < b)
    (h : Memory.wf ((b, w) :: m) = true) : Memory.wf ((a, v) :: (b, w) :: m) = true := by
  rw [Memory.wf, Bool.and_eq_true]
  exact ⟨decide_eq_true hab, h⟩

/-- The address of the first entry alone decides what may precede it. -/
theorem Memory.wf_replace {a : Nat} {v w : Byte} {m : List Host.Cell} (h : Memory.wf ((a, w) :: m) = true) :
    Memory.wf ((a, v) :: m) = true := by
  cases m with
  | nil => rfl
  | cons y m =>
    rw [Memory.wf, Bool.and_eq_true] at h ⊢
    exact h

theorem Memory.wf_memWrite (m : List Host.Cell) (a : Nat) (v : Byte) (h : Memory.wf m = true) :
    Memory.wf (memWrite m a v) = true := by
  induction m with
  | nil => rfl
  | cons x m ih =>
    obtain ⟨b, w⟩ := x
    unfold memWrite
    split
    · rename_i hab
      exact Memory.wf_cons hab h
    · split
      · rename_i hab
        subst hab
        exact Memory.wf_replace h
      · rename_i h1 h2
        have hb : b < a := by omega
        have ih' := ih (Memory.wf_tail h)
        cases m with
        | nil => exact Memory.wf_cons hb rfl
        | cons y m =>
          obtain ⟨c, u⟩ := y
          rw [Memory.wf, Bool.and_eq_true] at h
          have hbc := of_decide_eq_true h.1
          unfold memWrite at ih' ⊢
          split
          · exact Memory.wf_cons hb (by simpa [*] using ih')
          · split
            · exact Memory.wf_cons hb (by simpa [*] using ih')
            · exact Memory.wf_cons hbc (by simpa [*] using ih')

theorem Memory.wf_placeBytes (bytes : List Byte) (s : State) (k : Nat) (h : Memory.wf s.mem = true) :
    Memory.wf (s.placeBytes k bytes).mem = true := by
  induction bytes generalizing s k with
  | nil => exact h
  | cons b bs ih => exact ih _ _ (Memory.wf_memWrite _ _ _ h)

theorem Memory.wf_placeNext (bytes : List Byte) (s : State) (h : Memory.wf s.mem = true) :
    Memory.wf (s.placeNext bytes).mem = true := Memory.wf_placeBytes bytes s 0 h

theorem Memory.wf_withFetchWord (s : State) (nbits w : Nat) (h : Memory.wf s.mem = true) :
    Memory.wf (s.withFetchWord nbits w).mem = true := Memory.wf_placeNext _ s h

theorem Memory.wf_reset : Memory.wf State.reset.mem = true := rfl

/-- Placing bytes changes the memory alone. -/
theorem State.placeBytes_eq (bytes : List Byte) (s : State) (k : Nat) :
    s.placeBytes k bytes = { s with mem := (s.placeBytes k bytes).mem } := by
  induction bytes generalizing s k with
  | nil => rfl
  | cons b bs ih => exact ih _ _

end Sys2Proof.Machine
end

