-- ==== Sys2Proof/Laws/State.lean ====
section
/-! SUPPORT. One lemma per field per update of the state and of the recorder, so that no proof unfolds a record
update. -/

namespace Sys2Proof.Machine

/-! ### Updates of the state -/

@[simp] theorem State.setReg_cfg (s : State) (r : Reg) (v : Word) : (s.setReg r v).cfg = s.cfg := rfl

@[simp] theorem State.setReg_ctr (s : State) (r : Reg) (v : Word) : (s.setReg r v).ctr = s.ctr := rfl

@[simp] theorem State.setReg_pc (s : State) (r : Reg) (v : Word) : (s.setReg r v).pc = s.pc := rfl

@[simp] theorem State.setReg_mode (s : State) (r : Reg) (v : Word) : (s.setReg r v).mode = s.mode := rfl

@[simp] theorem State.setReg_mstatus (s : State) (r : Reg) (v : Word) : (s.setReg r v).mstatus = s.mstatus := rfl

@[simp] theorem State.setReg_hstatus (s : State) (r : Reg) (v : Word) : (s.setReg r v).hstatus = s.hstatus := rfl

@[simp] theorem State.setReg_vsstatus (s : State) (r : Reg) (v : Word) : (s.setReg r v).vsstatus = s.vsstatus := rfl

@[simp] theorem State.setReg_mtrap (s : State) (r : Reg) (v : Word) : (s.setReg r v).mtrap = s.mtrap := rfl

@[simp] theorem State.setReg_strap (s : State) (r : Reg) (v : Word) : (s.setReg r v).strap = s.strap := rfl

@[simp] theorem State.setReg_vstrap (s : State) (r : Reg) (v : Word) : (s.setReg r v).vstrap = s.vstrap := rfl

@[simp] theorem State.setReg_medeleg (s : State) (r : Reg) (v : Word) : (s.setReg r v).medeleg = s.medeleg := rfl

@[simp] theorem State.setReg_mideleg (s : State) (r : Reg) (v : Word) : (s.setReg r v).mideleg = s.mideleg := rfl

@[simp] theorem State.setReg_hedeleg (s : State) (r : Reg) (v : Word) : (s.setReg r v).hedeleg = s.hedeleg := rfl

@[simp] theorem State.setReg_hideleg (s : State) (r : Reg) (v : Word) : (s.setReg r v).hideleg = s.hideleg := rfl

@[simp] theorem State.setReg_mip (s : State) (r : Reg) (v : Word) : (s.setReg r v).mip = s.mip := rfl

@[simp] theorem State.setReg_mstateen0 (s : State) (r : Reg) (v : Word) :
    (s.setReg r v).mstateen0 = s.mstateen0 := rfl

@[simp] theorem State.setReg_hstateen0 (s : State) (r : Reg) (v : Word) :
    (s.setReg r v).hstateen0 = s.hstateen0 := rfl

@[simp] theorem State.setReg_miselect (s : State) (r : Reg) (v : Word) : (s.setReg r v).miselect = s.miselect := rfl

@[simp] theorem State.setReg_siselect (s : State) (r : Reg) (v : Word) : (s.setReg r v).siselect = s.siselect := rfl

@[simp] theorem State.setReg_vsiselect (s : State) (r : Reg) (v : Word) :
    (s.setReg r v).vsiselect = s.vsiselect := rfl

@[simp] theorem State.setReg_mem (s : State) (r : Reg) (v : Word) : (s.setReg r v).mem = s.mem := rfl

@[simp] theorem State.setReg_env (s : State) (r : Reg) (v : Word) : (s.setReg r v).env = s.env := rfl

@[simp] theorem State.setReg_draws (s : State) (r : Reg) (v : Word) : (s.setReg r v).draws = s.draws := rfl

@[simp] theorem State.bump_cfg (s : State) : (s.bump).cfg = s.cfg := rfl

@[simp] theorem State.bump_ctr (s : State) : (s.bump).ctr = s.ctr := rfl

@[simp] theorem State.bump_regs (s : State) : (s.bump).regs = s.regs := rfl

@[simp] theorem State.bump_pc (s : State) : (s.bump).pc = s.pc := rfl

@[simp] theorem State.bump_mode (s : State) : (s.bump).mode = s.mode := rfl

@[simp] theorem State.bump_mstatus (s : State) : (s.bump).mstatus = s.mstatus := rfl

@[simp] theorem State.bump_hstatus (s : State) : (s.bump).hstatus = s.hstatus := rfl

@[simp] theorem State.bump_vsstatus (s : State) : (s.bump).vsstatus = s.vsstatus := rfl

@[simp] theorem State.bump_mtrap (s : State) : (s.bump).mtrap = s.mtrap := rfl

@[simp] theorem State.bump_strap (s : State) : (s.bump).strap = s.strap := rfl

@[simp] theorem State.bump_vstrap (s : State) : (s.bump).vstrap = s.vstrap := rfl

@[simp] theorem State.bump_medeleg (s : State) : (s.bump).medeleg = s.medeleg := rfl

@[simp] theorem State.bump_mideleg (s : State) : (s.bump).mideleg = s.mideleg := rfl

@[simp] theorem State.bump_hedeleg (s : State) : (s.bump).hedeleg = s.hedeleg := rfl

@[simp] theorem State.bump_hideleg (s : State) : (s.bump).hideleg = s.hideleg := rfl

@[simp] theorem State.bump_mip (s : State) : (s.bump).mip = s.mip := rfl

@[simp] theorem State.bump_mstateen0 (s : State) : (s.bump).mstateen0 = s.mstateen0 := rfl

@[simp] theorem State.bump_hstateen0 (s : State) : (s.bump).hstateen0 = s.hstateen0 := rfl

@[simp] theorem State.bump_miselect (s : State) : (s.bump).miselect = s.miselect := rfl

@[simp] theorem State.bump_siselect (s : State) : (s.bump).siselect = s.siselect := rfl

@[simp] theorem State.bump_vsiselect (s : State) : (s.bump).vsiselect = s.vsiselect := rfl

@[simp] theorem State.bump_mem (s : State) : (s.bump).mem = s.mem := rfl

@[simp] theorem State.bump_env (s : State) : (s.bump).env = s.env := rfl

@[simp] theorem State.bump_draws (s : State) : (s.bump).draws = s.draws + 1 := rfl

@[simp] theorem State.retire_cfg (s : State) (k : Kind) (a : Word) : (s.retire k a).cfg = s.cfg := rfl

@[simp] theorem State.retire_ctr (s : State) (k : Kind) (a : Word) :
    (s.retire k a).ctr = (s.ctr.onRetire s.cfg k s.mode s.pc a (drawMisp s.draws)).settle s.cfg s.mode := rfl

@[simp] theorem State.retire_regs (s : State) (k : Kind) (a : Word) : (s.retire k a).regs = s.regs := rfl

@[simp] theorem State.retire_pc (s : State) (k : Kind) (a : Word) : (s.retire k a).pc = a := rfl

@[simp] theorem State.retire_mode (s : State) (k : Kind) (a : Word) : (s.retire k a).mode = s.mode := rfl

@[simp] theorem State.retire_mstatus (s : State) (k : Kind) (a : Word) : (s.retire k a).mstatus = s.mstatus := rfl

@[simp] theorem State.retire_hstatus (s : State) (k : Kind) (a : Word) : (s.retire k a).hstatus = s.hstatus := rfl

@[simp] theorem State.retire_vsstatus (s : State) (k : Kind) (a : Word) : (s.retire k a).vsstatus = s.vsstatus := rfl

@[simp] theorem State.retire_mtrap (s : State) (k : Kind) (a : Word) : (s.retire k a).mtrap = s.mtrap := rfl

@[simp] theorem State.retire_strap (s : State) (k : Kind) (a : Word) : (s.retire k a).strap = s.strap := rfl

@[simp] theorem State.retire_vstrap (s : State) (k : Kind) (a : Word) : (s.retire k a).vstrap = s.vstrap := rfl

@[simp] theorem State.retire_medeleg (s : State) (k : Kind) (a : Word) : (s.retire k a).medeleg = s.medeleg := rfl

@[simp] theorem State.retire_mideleg (s : State) (k : Kind) (a : Word) : (s.retire k a).mideleg = s.mideleg := rfl

@[simp] theorem State.retire_hedeleg (s : State) (k : Kind) (a : Word) : (s.retire k a).hedeleg = s.hedeleg := rfl

@[simp] theorem State.retire_hideleg (s : State) (k : Kind) (a : Word) : (s.retire k a).hideleg = s.hideleg := rfl

@[simp] theorem State.retire_mip (s : State) (k : Kind) (a : Word) : (s.retire k a).mip = s.mip := rfl

@[simp] theorem State.retire_mstateen0 (s : State) (k : Kind) (a : Word) :
    (s.retire k a).mstateen0 = s.mstateen0 := rfl

@[simp] theorem State.retire_hstateen0 (s : State) (k : Kind) (a : Word) :
    (s.retire k a).hstateen0 = s.hstateen0 := rfl

@[simp] theorem State.retire_miselect (s : State) (k : Kind) (a : Word) : (s.retire k a).miselect = s.miselect := rfl

@[simp] theorem State.retire_siselect (s : State) (k : Kind) (a : Word) : (s.retire k a).siselect = s.siselect := rfl

@[simp] theorem State.retire_vsiselect (s : State) (k : Kind) (a : Word) :
    (s.retire k a).vsiselect = s.vsiselect := rfl

@[simp] theorem State.retire_mem (s : State) (k : Kind) (a : Word) : (s.retire k a).mem = s.mem := rfl

@[simp] theorem State.retire_env (s : State) (k : Kind) (a : Word) : (s.retire k a).env = s.env := rfl

@[simp] theorem State.retire_draws (s : State) (k : Kind) (a : Word) : (s.retire k a).draws = s.draws + 1 := rfl

@[simp] theorem State.returnTo_cfg (s : State) (m : Mode) (epc : Word) : (s.returnTo m epc).cfg = s.cfg := rfl

@[simp] theorem State.returnTo_ctr (s : State) (m : Mode) (epc : Word) :
    (s.returnTo m epc).ctr =
      (s.ctr.onTrapReturn s.cfg s.mode m s.pc (s.returnTo m epc).pc (drawMisp s.draws)).settle s.cfg m := rfl

@[simp] theorem State.returnTo_regs (s : State) (m : Mode) (epc : Word) : (s.returnTo m epc).regs = s.regs := rfl

@[simp] theorem State.returnTo_pc (s : State) (m : Mode) (epc : Word) :
    (s.returnTo m epc).pc = trunc (xlenOf s.cfg m) (trunc s.x epc &&& epcMask s.cfg) := rfl

@[simp] theorem State.returnTo_mode (s : State) (m : Mode) (epc : Word) : (s.returnTo m epc).mode = m := rfl

@[simp] theorem State.returnTo_mstatus (s : State) (m : Mode) (epc : Word) :
    (s.returnTo m epc).mstatus = s.mstatus := rfl

@[simp] theorem State.returnTo_hstatus (s : State) (m : Mode) (epc : Word) :
    (s.returnTo m epc).hstatus = s.hstatus := rfl

@[simp] theorem State.returnTo_vsstatus (s : State) (m : Mode) (epc : Word) :
    (s.returnTo m epc).vsstatus = s.vsstatus := rfl

@[simp] theorem State.returnTo_mtrap (s : State) (m : Mode) (epc : Word) : (s.returnTo m epc).mtrap = s.mtrap := rfl

@[simp] theorem State.returnTo_strap (s : State) (m : Mode) (epc : Word) : (s.returnTo m epc).strap = s.strap := rfl

@[simp] theorem State.returnTo_vstrap (s : State) (m : Mode) (epc : Word) :
    (s.returnTo m epc).vstrap = s.vstrap := rfl

@[simp] theorem State.returnTo_medeleg (s : State) (m : Mode) (epc : Word) :
    (s.returnTo m epc).medeleg = s.medeleg := rfl

@[simp] theorem State.returnTo_mideleg (s : State) (m : Mode) (epc : Word) :
    (s.returnTo m epc).mideleg = s.mideleg := rfl

@[simp] theorem State.returnTo_hedeleg (s : State) (m : Mode) (epc : Word) :
    (s.returnTo m epc).hedeleg = s.hedeleg := rfl

@[simp] theorem State.returnTo_hideleg (s : State) (m : Mode) (epc : Word) :
    (s.returnTo m epc).hideleg = s.hideleg := rfl

@[simp] theorem State.returnTo_mip (s : State) (m : Mode) (epc : Word) :
    (s.returnTo m epc).mip = s.mip := rfl

@[simp] theorem State.returnTo_mstateen0 (s : State) (m : Mode) (epc : Word) :
    (s.returnTo m epc).mstateen0 = s.mstateen0 := rfl

@[simp] theorem State.returnTo_hstateen0 (s : State) (m : Mode) (epc : Word) :
    (s.returnTo m epc).hstateen0 = s.hstateen0 := rfl

@[simp] theorem State.returnTo_miselect (s : State) (m : Mode) (epc : Word) :
    (s.returnTo m epc).miselect = s.miselect := rfl

@[simp] theorem State.returnTo_siselect (s : State) (m : Mode) (epc : Word) :
    (s.returnTo m epc).siselect = s.siselect := rfl

@[simp] theorem State.returnTo_vsiselect (s : State) (m : Mode) (epc : Word) :
    (s.returnTo m epc).vsiselect = s.vsiselect := rfl

@[simp] theorem State.returnTo_mem (s : State) (m : Mode) (epc : Word) : (s.returnTo m epc).mem = s.mem := rfl

@[simp] theorem State.returnTo_env (s : State) (m : Mode) (epc : Word) : (s.returnTo m epc).env = s.env := rfl

@[simp] theorem State.returnTo_draws (s : State) (m : Mode) (epc : Word) :
    (s.returnTo m epc).draws = s.draws + 1 := rfl

@[simp] theorem State.csrDone_cfg (s : State) (r : Reg) (v : Word) : (s.csrDone r v).cfg = s.cfg := rfl

@[simp] theorem State.csrDone_ctr (s : State) (r : Reg) (v : Word) :
    (s.csrDone r v).ctr = s.ctr.settle s.cfg s.mode := rfl

@[simp] theorem State.csrDone_regs (s : State) (r : Reg) (v : Word) :
    (s.csrDone r v).regs = (s.setReg r v).regs := rfl

@[simp] theorem State.csrDone_pc (s : State) (r : Reg) (v : Word) : (s.csrDone r v).pc = s.pcNext 4 := rfl

@[simp] theorem State.csrDone_mode (s : State) (r : Reg) (v : Word) : (s.csrDone r v).mode = s.mode := rfl

@[simp] theorem State.csrDone_mstatus (s : State) (r : Reg) (v : Word) : (s.csrDone r v).mstatus = s.mstatus := rfl

@[simp] theorem State.csrDone_hstatus (s : State) (r : Reg) (v : Word) : (s.csrDone r v).hstatus = s.hstatus := rfl

@[simp] theorem State.csrDone_vsstatus (s : State) (r : Reg) (v : Word) : (s.csrDone r v).vsstatus = s.vsstatus := rfl

@[simp] theorem State.csrDone_mtrap (s : State) (r : Reg) (v : Word) : (s.csrDone r v).mtrap = s.mtrap := rfl

@[simp] theorem State.csrDone_strap (s : State) (r : Reg) (v : Word) : (s.csrDone r v).strap = s.strap := rfl

@[simp] theorem State.csrDone_vstrap (s : State) (r : Reg) (v : Word) : (s.csrDone r v).vstrap = s.vstrap := rfl

@[simp] theorem State.csrDone_medeleg (s : State) (r : Reg) (v : Word) : (s.csrDone r v).medeleg = s.medeleg := rfl

@[simp] theorem State.csrDone_mideleg (s : State) (r : Reg) (v : Word) : (s.csrDone r v).mideleg = s.mideleg := rfl

@[simp] theorem State.csrDone_hedeleg (s : State) (r : Reg) (v : Word) : (s.csrDone r v).hedeleg = s.hedeleg := rfl

@[simp] theorem State.csrDone_hideleg (s : State) (r : Reg) (v : Word) : (s.csrDone r v).hideleg = s.hideleg := rfl

@[simp] theorem State.csrDone_mip (s : State) (r : Reg) (v : Word) : (s.csrDone r v).mip = s.mip := rfl

@[simp] theorem State.csrDone_mstateen0 (s : State) (r : Reg) (v : Word) :
    (s.csrDone r v).mstateen0 = s.mstateen0 := rfl

@[simp] theorem State.csrDone_hstateen0 (s : State) (r : Reg) (v : Word) :
    (s.csrDone r v).hstateen0 = s.hstateen0 := rfl

@[simp] theorem State.csrDone_miselect (s : State) (r : Reg) (v : Word) : (s.csrDone r v).miselect = s.miselect := rfl

@[simp] theorem State.csrDone_siselect (s : State) (r : Reg) (v : Word) : (s.csrDone r v).siselect = s.siselect := rfl

@[simp] theorem State.csrDone_vsiselect (s : State) (r : Reg) (v : Word) :
    (s.csrDone r v).vsiselect = s.vsiselect := rfl

@[simp] theorem State.csrDone_mem (s : State) (r : Reg) (v : Word) : (s.csrDone r v).mem = s.mem := rfl

@[simp] theorem State.csrDone_env (s : State) (r : Reg) (v : Word) : (s.csrDone r v).env = s.env := rfl

@[simp] theorem State.csrDone_draws (s : State) (r : Reg) (v : Word) : (s.csrDone r v).draws = s.draws + 1 := rfl

@[simp] theorem State.hostResult_cfg (s : State) (r : Reg) (v : Word) : (s.hostResult r v).cfg = s.cfg := rfl

@[simp] theorem State.hostResult_ctr (s : State) (r : Reg) (v : Word) : (s.hostResult r v).ctr = s.ctr := rfl

@[simp] theorem State.hostResult_regs (s : State) (r : Reg) (v : Word) :
    (s.hostResult r v).regs = (s.setReg r (trunc s.x v)).regs := rfl

@[simp] theorem State.hostResult_pc (s : State) (r : Reg) (v : Word) : (s.hostResult r v).pc = s.pcNext 4 := rfl

@[simp] theorem State.hostResult_mode (s : State) (r : Reg) (v : Word) : (s.hostResult r v).mode = s.mode := rfl

@[simp] theorem State.hostResult_mstatus (s : State) (r : Reg) (v : Word) :
    (s.hostResult r v).mstatus = s.mstatus := rfl

@[simp] theorem State.hostResult_hstatus (s : State) (r : Reg) (v : Word) :
    (s.hostResult r v).hstatus = s.hstatus := rfl

@[simp] theorem State.hostResult_vsstatus (s : State) (r : Reg) (v : Word) :
    (s.hostResult r v).vsstatus = s.vsstatus := rfl

@[simp] theorem State.hostResult_mtrap (s : State) (r : Reg) (v : Word) : (s.hostResult r v).mtrap = s.mtrap := rfl

@[simp] theorem State.hostResult_strap (s : State) (r : Reg) (v : Word) : (s.hostResult r v).strap = s.strap := rfl

@[simp] theorem State.hostResult_vstrap (s : State) (r : Reg) (v : Word) : (s.hostResult r v).vstrap = s.vstrap := rfl

@[simp] theorem State.hostResult_medeleg (s : State) (r : Reg) (v : Word) :
    (s.hostResult r v).medeleg = s.medeleg := rfl

@[simp] theorem State.hostResult_mideleg (s : State) (r : Reg) (v : Word) :
    (s.hostResult r v).mideleg = s.mideleg := rfl

@[simp] theorem State.hostResult_hedeleg (s : State) (r : Reg) (v : Word) :
    (s.hostResult r v).hedeleg = s.hedeleg := rfl

@[simp] theorem State.hostResult_hideleg (s : State) (r : Reg) (v : Word) :
    (s.hostResult r v).hideleg = s.hideleg := rfl

@[simp] theorem State.hostResult_mip (s : State) (r : Reg) (v : Word) :
    (s.hostResult r v).mip = s.mip := rfl

@[simp] theorem State.hostResult_mstateen0 (s : State) (r : Reg) (v : Word) :
    (s.hostResult r v).mstateen0 = s.mstateen0 := rfl

@[simp] theorem State.hostResult_hstateen0 (s : State) (r : Reg) (v : Word) :
    (s.hostResult r v).hstateen0 = s.hstateen0 := rfl

@[simp] theorem State.hostResult_miselect (s : State) (r : Reg) (v : Word) :
    (s.hostResult r v).miselect = s.miselect := rfl

@[simp] theorem State.hostResult_siselect (s : State) (r : Reg) (v : Word) :
    (s.hostResult r v).siselect = s.siselect := rfl

@[simp] theorem State.hostResult_vsiselect (s : State) (r : Reg) (v : Word) :
    (s.hostResult r v).vsiselect = s.vsiselect := rfl

@[simp] theorem State.hostResult_mem (s : State) (r : Reg) (v : Word) : (s.hostResult r v).mem = s.mem := rfl

@[simp] theorem State.hostResult_env (s : State) (r : Reg) (v : Word) : (s.hostResult r v).env = s.env := rfl

@[simp] theorem State.hostResult_draws (s : State) (r : Reg) (v : Word) :
    (s.hostResult r v).draws = s.draws + 1 := rfl

@[simp] theorem State.enterDebug_cfg (s : State) : (s.enterDebug).cfg = s.cfg := rfl

@[simp] theorem State.enterDebug_ctr (s : State) : (s.enterDebug).ctr = s.ctr.settle s.cfg .Debug := rfl

@[simp] theorem State.enterDebug_regs (s : State) : (s.enterDebug).regs = s.regs := rfl

@[simp] theorem State.enterDebug_pc (s : State) : (s.enterDebug).pc = s.pc := rfl

@[simp] theorem State.enterDebug_mode (s : State) : (s.enterDebug).mode = .Debug := rfl

@[simp] theorem State.enterDebug_mstatus (s : State) : (s.enterDebug).mstatus = s.mstatus := rfl

@[simp] theorem State.enterDebug_hstatus (s : State) : (s.enterDebug).hstatus = s.hstatus := rfl

@[simp] theorem State.enterDebug_vsstatus (s : State) : (s.enterDebug).vsstatus = s.vsstatus := rfl

@[simp] theorem State.enterDebug_mtrap (s : State) : (s.enterDebug).mtrap = s.mtrap := rfl

@[simp] theorem State.enterDebug_strap (s : State) : (s.enterDebug).strap = s.strap := rfl

@[simp] theorem State.enterDebug_vstrap (s : State) : (s.enterDebug).vstrap = s.vstrap := rfl

@[simp] theorem State.enterDebug_medeleg (s : State) : (s.enterDebug).medeleg = s.medeleg := rfl

@[simp] theorem State.enterDebug_mideleg (s : State) : (s.enterDebug).mideleg = s.mideleg := rfl

@[simp] theorem State.enterDebug_hedeleg (s : State) : (s.enterDebug).hedeleg = s.hedeleg := rfl

@[simp] theorem State.enterDebug_hideleg (s : State) : (s.enterDebug).hideleg = s.hideleg := rfl

@[simp] theorem State.enterDebug_mip (s : State) : (s.enterDebug).mip = s.mip := rfl

@[simp] theorem State.enterDebug_mstateen0 (s : State) : (s.enterDebug).mstateen0 = s.mstateen0 := rfl

@[simp] theorem State.enterDebug_hstateen0 (s : State) : (s.enterDebug).hstateen0 = s.hstateen0 := rfl

@[simp] theorem State.enterDebug_miselect (s : State) : (s.enterDebug).miselect = s.miselect := rfl

@[simp] theorem State.enterDebug_siselect (s : State) : (s.enterDebug).siselect = s.siselect := rfl

@[simp] theorem State.enterDebug_vsiselect (s : State) : (s.enterDebug).vsiselect = s.vsiselect := rfl

@[simp] theorem State.enterDebug_mem (s : State) : (s.enterDebug).mem = s.mem := rfl

@[simp] theorem State.enterDebug_env (s : State) : (s.enterDebug).env = s.env := rfl

@[simp] theorem State.enterDebug_draws (s : State) : (s.enterDebug).draws = s.draws := rfl

@[simp] theorem State.exitDebug_cfg (s : State) (m : Mode) (a : Word) : (s.exitDebug m a).cfg = s.cfg := rfl

@[simp] theorem State.exitDebug_ctr (s : State) (m : Mode) (a : Word) :
    (s.exitDebug m a).ctr = s.ctr.settle s.cfg m := rfl

@[simp] theorem State.exitDebug_regs (s : State) (m : Mode) (a : Word) : (s.exitDebug m a).regs = s.regs := rfl

@[simp] theorem State.exitDebug_pc (s : State) (m : Mode) (a : Word) :
    (s.exitDebug m a).pc = trunc (xlenOf s.cfg m) (a &&& epcMask s.cfg) := rfl

@[simp] theorem State.exitDebug_mode (s : State) (m : Mode) (a : Word) : (s.exitDebug m a).mode = m := rfl

@[simp] theorem State.exitDebug_mstatus (s : State) (m : Mode) (a : Word) :
    (s.exitDebug m a).mstatus = s.mstatus := rfl

@[simp] theorem State.exitDebug_hstatus (s : State) (m : Mode) (a : Word) :
    (s.exitDebug m a).hstatus = s.hstatus := rfl

@[simp] theorem State.exitDebug_vsstatus (s : State) (m : Mode) (a : Word) :
    (s.exitDebug m a).vsstatus = s.vsstatus := rfl

@[simp] theorem State.exitDebug_mtrap (s : State) (m : Mode) (a : Word) : (s.exitDebug m a).mtrap = s.mtrap := rfl

@[simp] theorem State.exitDebug_strap (s : State) (m : Mode) (a : Word) : (s.exitDebug m a).strap = s.strap := rfl

@[simp] theorem State.exitDebug_vstrap (s : State) (m : Mode) (a : Word) : (s.exitDebug m a).vstrap = s.vstrap := rfl

@[simp] theorem State.exitDebug_medeleg (s : State) (m : Mode) (a : Word) :
    (s.exitDebug m a).medeleg = s.medeleg := rfl

@[simp] theorem State.exitDebug_mideleg (s : State) (m : Mode) (a : Word) :
    (s.exitDebug m a).mideleg = s.mideleg := rfl

@[simp] theorem State.exitDebug_hedeleg (s : State) (m : Mode) (a : Word) :
    (s.exitDebug m a).hedeleg = s.hedeleg := rfl

@[simp] theorem State.exitDebug_hideleg (s : State) (m : Mode) (a : Word) :
    (s.exitDebug m a).hideleg = s.hideleg := rfl

@[simp] theorem State.exitDebug_mip (s : State) (m : Mode) (a : Word) :
    (s.exitDebug m a).mip = s.mip := rfl

@[simp] theorem State.exitDebug_mstateen0 (s : State) (m : Mode) (a : Word) :
    (s.exitDebug m a).mstateen0 = s.mstateen0 := rfl

@[simp] theorem State.exitDebug_hstateen0 (s : State) (m : Mode) (a : Word) :
    (s.exitDebug m a).hstateen0 = s.hstateen0 := rfl

@[simp] theorem State.exitDebug_miselect (s : State) (m : Mode) (a : Word) :
    (s.exitDebug m a).miselect = s.miselect := rfl

@[simp] theorem State.exitDebug_siselect (s : State) (m : Mode) (a : Word) :
    (s.exitDebug m a).siselect = s.siselect := rfl

@[simp] theorem State.exitDebug_vsiselect (s : State) (m : Mode) (a : Word) :
    (s.exitDebug m a).vsiselect = s.vsiselect := rfl

@[simp] theorem State.exitDebug_mem (s : State) (m : Mode) (a : Word) : (s.exitDebug m a).mem = s.mem := rfl

@[simp] theorem State.exitDebug_env (s : State) (m : Mode) (a : Word) : (s.exitDebug m a).env = s.env := rfl

@[simp] theorem State.exitDebug_draws (s : State) (m : Mode) (a : Word) : (s.exitDebug m a).draws = s.draws := rfl

@[simp] theorem State.trapInto_cfg (s : State) (i : Bool) (e : Exc) (m : Mode) : (s.trapInto i e m).cfg = s.cfg := by
  cases m <;> rfl

@[simp] theorem State.trapInto_ctr (s : State) (i : Bool) (e : Exc) (m : Mode) :
    (s.trapInto i e m).ctr =
      (s.ctr.onTrap s.cfg i e.cause s.mode m s.pc (s.trapInto i e m).pc (drawMisp s.draws)).settle s.cfg m := rfl

@[simp] theorem State.trapInto_regs (s : State) (i : Bool) (e : Exc) (m : Mode) :
    (s.trapInto i e m).regs = s.regs := by
  cases m <;> rfl

@[simp] theorem State.trapInto_medeleg (s : State) (i : Bool) (e : Exc) (m : Mode) :
    (s.trapInto i e m).medeleg = s.medeleg := by
  cases m <;> rfl

@[simp] theorem State.trapInto_mideleg (s : State) (i : Bool) (e : Exc) (m : Mode) :
    (s.trapInto i e m).mideleg = s.mideleg := by
  cases m <;> rfl

@[simp] theorem State.trapInto_hedeleg (s : State) (i : Bool) (e : Exc) (m : Mode) :
    (s.trapInto i e m).hedeleg = s.hedeleg := by
  cases m <;> rfl

@[simp] theorem State.trapInto_hideleg (s : State) (i : Bool) (e : Exc) (m : Mode) :
    (s.trapInto i e m).hideleg = s.hideleg := by
  cases m <;> rfl

@[simp] theorem State.trapInto_mip (s : State) (i : Bool) (e : Exc) (m : Mode) :
    (s.trapInto i e m).mip = s.mip := by
  cases m <;> rfl

@[simp] theorem State.trapInto_mstateen0 (s : State) (i : Bool) (e : Exc) (m : Mode) :
    (s.trapInto i e m).mstateen0 = s.mstateen0 := by
  cases m <;> rfl

@[simp] theorem State.trapInto_hstateen0 (s : State) (i : Bool) (e : Exc) (m : Mode) :
    (s.trapInto i e m).hstateen0 = s.hstateen0 := by
  cases m <;> rfl

@[simp] theorem State.trapInto_miselect (s : State) (i : Bool) (e : Exc) (m : Mode) :
    (s.trapInto i e m).miselect = s.miselect := by
  cases m <;> rfl

@[simp] theorem State.trapInto_siselect (s : State) (i : Bool) (e : Exc) (m : Mode) :
    (s.trapInto i e m).siselect = s.siselect := by
  cases m <;> rfl

@[simp] theorem State.trapInto_vsiselect (s : State) (i : Bool) (e : Exc) (m : Mode) :
    (s.trapInto i e m).vsiselect = s.vsiselect := by
  cases m <;> rfl

@[simp] theorem State.trapInto_mem (s : State) (i : Bool) (e : Exc) (m : Mode) : (s.trapInto i e m).mem = s.mem := by
  cases m <;> rfl

@[simp] theorem State.trapInto_env (s : State) (i : Bool) (e : Exc) (m : Mode) : (s.trapInto i e m).env = s.env := by
  cases m <;> rfl

@[simp] theorem State.trapInto_mode (s : State) (i : Bool) (e : Exc) (m : Mode) : (s.trapInto i e m).mode = m := rfl

@[simp] theorem State.trapInto_pc (s : State) (i : Bool) (e : Exc) (m : Mode) :
    (s.trapInto i e m).pc = handlerAddr (xlenOf s.cfg m) (s.trapRegs m).tvec i e.cause := rfl

@[simp] theorem State.trapInto_draws (s : State) (i : Bool) (e : Exc) (m : Mode) :
    (s.trapInto i e m).draws = s.draws + 1 := rfl

/-! ### A CSR write leaves the rest of the machine alone -/

@[simp] theorem State.writeCsr_cfg (s : State) (c : Csr) (v : Word) : (s.writeCsr c v).cfg = s.cfg := by
  unfold State.writeCsr
  cases aliasOf s.mode c <;> rfl

@[simp] theorem State.writeCsr_regs (s : State) (c : Csr) (v : Word) : (s.writeCsr c v).regs = s.regs := by
  unfold State.writeCsr
  cases aliasOf s.mode c <;> rfl

@[simp] theorem State.writeCsr_pc (s : State) (c : Csr) (v : Word) : (s.writeCsr c v).pc = s.pc := by
  unfold State.writeCsr
  cases aliasOf s.mode c <;> rfl

@[simp] theorem State.writeCsr_mode (s : State) (c : Csr) (v : Word) : (s.writeCsr c v).mode = s.mode := by
  unfold State.writeCsr
  cases aliasOf s.mode c <;> rfl

@[simp] theorem State.writeCsr_mem (s : State) (c : Csr) (v : Word) : (s.writeCsr c v).mem = s.mem := by
  unfold State.writeCsr
  cases aliasOf s.mode c <;> rfl

@[simp] theorem State.writeCsr_env (s : State) (c : Csr) (v : Word) : (s.writeCsr c v).env = s.env := by
  unfold State.writeCsr
  cases aliasOf s.mode c <;> rfl

@[simp] theorem State.writeCsr_draws (s : State) (c : Csr) (v : Word) : (s.writeCsr c v).draws = s.draws := by
  unfold State.writeCsr
  cases aliasOf s.mode c <;> rfl

/-! ### Updates of the recorder -/

@[simp] theorem Ctr.push_mctl (cfg : Config) (c : Ctr) (e : Entry) : (c.push cfg e).mctl = c.mctl := rfl

@[simp] theorem Ctr.push_vsctl (cfg : Config) (c : Ctr) (e : Entry) : (c.push cfg e).vsctl = c.vsctl := rfl

@[simp] theorem Ctr.push_wrptr (cfg : Config) (c : Ctr) (e : Entry) :
    (c.push cfg e).wrptr = BitVec.ofNat 8 ((c.wp.val + 1) % c.depth) := rfl

@[simp] theorem Ctr.push_wrap (cfg : Config) (c : Ctr) (e : Entry) :
    (c.push cfg e).wrap = (c.wrap || c.wp.val == c.depth - 1) := rfl

@[simp] theorem Ctr.push_frozen (cfg : Config) (c : Ctr) (e : Entry) : (c.push cfg e).frozen = c.frozen := rfl

@[simp] theorem Ctr.push_arr (cfg : Config) (c : Ctr) (e : Entry) : (c.push cfg e).arr = c.arr.set c.wp e := rfl

@[simp] theorem Ctr.push_ccCount (cfg : Config) (c : Ctr) (e : Entry) :
    (c.push cfg e).ccCount = if cfg.hasCc then 0 else c.ccCount := rfl

@[simp] theorem Ctr.push_ccOk (cfg : Config) (c : Ctr) (e : Entry) :
    (c.push cfg e).ccOk = if cfg.hasCc then true else c.ccOk := rfl

@[simp] theorem Ctr.restartCount_mctl (cfg : Config) (c : Ctr) : (c.restartCount cfg).mctl = c.mctl := rfl

@[simp] theorem Ctr.restartCount_vsctl (cfg : Config) (c : Ctr) : (c.restartCount cfg).vsctl = c.vsctl := rfl

@[simp] theorem Ctr.restartCount_wrptr (cfg : Config) (c : Ctr) : (c.restartCount cfg).wrptr = c.wrptr := rfl

@[simp] theorem Ctr.restartCount_wrap (cfg : Config) (c : Ctr) : (c.restartCount cfg).wrap = c.wrap := rfl

@[simp] theorem Ctr.restartCount_frozen (cfg : Config) (c : Ctr) : (c.restartCount cfg).frozen = c.frozen := rfl

@[simp] theorem Ctr.restartCount_arr (cfg : Config) (c : Ctr) : (c.restartCount cfg).arr = c.arr := rfl

@[simp] theorem Ctr.restartCount_ccCount (cfg : Config) (c : Ctr) :
    (c.restartCount cfg).ccCount = if cfg.hasCc then 0 else c.ccCount := rfl

@[simp] theorem Ctr.restartCount_ccOk (cfg : Config) (c : Ctr) :
    (c.restartCount cfg).ccOk = if cfg.hasCc then true else c.ccOk := rfl

@[simp] theorem Ctr.rasCcOnPop_mctl (cfg : Config) (c : Ctr) (p : Fin 256) : (c.rasCcOnPop cfg p).mctl = c.mctl := by
  unfold Ctr.rasCcOnPop
  split <;> rfl

@[simp] theorem Ctr.rasCcOnPop_vsctl (cfg : Config) (c : Ctr) (p : Fin 256) :
    (c.rasCcOnPop cfg p).vsctl = c.vsctl := by
  unfold Ctr.rasCcOnPop
  split <;> rfl

@[simp] theorem Ctr.rasCcOnPop_wrptr (cfg : Config) (c : Ctr) (p : Fin 256) :
    (c.rasCcOnPop cfg p).wrptr = c.wrptr := by
  unfold Ctr.rasCcOnPop
  split <;> rfl

@[simp] theorem Ctr.rasCcOnPop_wrap (cfg : Config) (c : Ctr) (p : Fin 256) : (c.rasCcOnPop cfg p).wrap = c.wrap := by
  unfold Ctr.rasCcOnPop
  split <;> rfl

@[simp] theorem Ctr.rasCcOnPop_frozen (cfg : Config) (c : Ctr) (p : Fin 256) :
    (c.rasCcOnPop cfg p).frozen = c.frozen := by
  unfold Ctr.rasCcOnPop
  split <;> rfl

@[simp] theorem Ctr.rasCcOnPop_arr (cfg : Config) (c : Ctr) (p : Fin 256) : (c.rasCcOnPop cfg p).arr = c.arr := by
  unfold Ctr.rasCcOnPop
  split <;> rfl

@[simp] theorem Ctr.rasPop_mctl (cfg : Config) (c : Ctr) : (c.rasPop cfg).mctl = c.mctl := by
  simp [Ctr.rasPop]

@[simp] theorem Ctr.rasPop_vsctl (cfg : Config) (c : Ctr) : (c.rasPop cfg).vsctl = c.vsctl := by
  simp [Ctr.rasPop]

@[simp] theorem Ctr.rasPop_wrptr (cfg : Config) (c : Ctr) :
    (c.rasPop cfg).wrptr = BitVec.ofNat 8 (c.phys 0).val := rfl

@[simp] theorem Ctr.rasPop_wrap (cfg : Config) (c : Ctr) : (c.rasPop cfg).wrap = (c.wrap && c.wp.val != 0) := rfl

@[simp] theorem Ctr.rasPop_frozen (cfg : Config) (c : Ctr) : (c.rasPop cfg).frozen = c.frozen := by
  simp [Ctr.rasPop]

@[simp] theorem Ctr.rasPop_arr (cfg : Config) (c : Ctr) :
    (c.rasPop cfg).arr = c.arr.set (c.phys 0) (c.arr.get (c.phys 0)).invalidate := rfl

@[simp] theorem Ctr.rasPop_ccCount (cfg : Config) (c : Ctr) :
    (c.rasPop cfg).ccCount = (c.rasCcOnPop cfg (c.phys 0)).ccCount := rfl

@[simp] theorem Ctr.rasPop_ccOk (cfg : Config) (c : Ctr) :
    (c.rasPop cfg).ccOk = (c.rasCcOnPop cfg (c.phys 0)).ccOk := rfl

@[simp] theorem Ctr.rasSwap_mctl (cfg : Config) (c : Ctr) (s t : BitVec 63) (b : Bool) :
    (c.rasSwap cfg s t b).mctl = c.mctl := rfl

@[simp] theorem Ctr.rasSwap_vsctl (cfg : Config) (c : Ctr) (s t : BitVec 63) (b : Bool) :
    (c.rasSwap cfg s t b).vsctl = c.vsctl := rfl

@[simp] theorem Ctr.rasSwap_wrptr (cfg : Config) (c : Ctr) (s t : BitVec 63) (b : Bool) :
    (c.rasSwap cfg s t b).wrptr = c.wrptr := rfl

@[simp] theorem Ctr.rasSwap_wrap (cfg : Config) (c : Ctr) (s t : BitVec 63) (b : Bool) :
    (c.rasSwap cfg s t b).wrap = c.wrap := rfl

@[simp] theorem Ctr.rasSwap_frozen (cfg : Config) (c : Ctr) (s t : BitVec 63) (b : Bool) :
    (c.rasSwap cfg s t b).frozen = c.frozen := rfl

@[simp] theorem Ctr.rasSwap_ccCount (cfg : Config) (c : Ctr) (s t : BitVec 63) (b : Bool) :
    (c.rasSwap cfg s t b).ccCount = if cfg.hasCc then 0 else c.ccCount := rfl

@[simp] theorem Ctr.rasSwap_ccOk (cfg : Config) (c : Ctr) (s t : BitVec 63) (b : Bool) :
    (c.rasSwap cfg s t b).ccOk = if cfg.hasCc then true else c.ccOk := rfl

@[simp] theorem Ctr.settle_mctl (cfg : Config) (c : Ctr) (m : Mode) : (c.settle cfg m).mctl = c.mctl := by
  unfold Ctr.settle
  split <;> rfl

@[simp] theorem Ctr.settle_vsctl (cfg : Config) (c : Ctr) (m : Mode) : (c.settle cfg m).vsctl = c.vsctl := by
  unfold Ctr.settle
  split <;> rfl

@[simp] theorem Ctr.settle_wrptr (cfg : Config) (c : Ctr) (m : Mode) : (c.settle cfg m).wrptr = c.wrptr := by
  unfold Ctr.settle
  split <;> rfl

@[simp] theorem Ctr.settle_wrap (cfg : Config) (c : Ctr) (m : Mode) : (c.settle cfg m).wrap = c.wrap := by
  unfold Ctr.settle
  split <;> rfl

@[simp] theorem Ctr.settle_frozen (cfg : Config) (c : Ctr) (m : Mode) : (c.settle cfg m).frozen = c.frozen := by
  unfold Ctr.settle
  split <;> rfl

@[simp] theorem Ctr.settle_arr (cfg : Config) (c : Ctr) (m : Mode) : (c.settle cfg m).arr = c.arr := by
  unfold Ctr.settle
  split <;> rfl

@[simp] theorem Ctr.settle_ccCount (cfg : Config) (c : Ctr) (m : Mode) : (c.settle cfg m).ccCount = c.ccCount := by
  unfold Ctr.settle
  split <;> rfl

@[simp] theorem Ctr.clear_mctl (cfg : Config) (ev : Nat) (c : Ctr) : (c.clear cfg ev).mctl = c.mctl := by
  simp only [Ctr.clear]

@[simp] theorem Ctr.clear_vsctl (cfg : Config) (ev : Nat) (c : Ctr) : (c.clear cfg ev).vsctl = c.vsctl := by
  simp only [Ctr.clear]

@[simp] theorem Ctr.clear_wrptr (cfg : Config) (ev : Nat) (c : Ctr) : (c.clear cfg ev).wrptr = 0 := by
  simp only [Ctr.clear]

@[simp] theorem Ctr.clear_wrap (cfg : Config) (ev : Nat) (c : Ctr) : (c.clear cfg ev).wrap = false := by
  simp only [Ctr.clear]

@[simp] theorem Ctr.clear_frozen (cfg : Config) (ev : Nat) (c : Ctr) : (c.clear cfg ev).frozen = false := by
  simp only [Ctr.clear]

@[simp] theorem Ctr.clear_arr (cfg : Config) (ev : Nat) (c : Ctr) :
    (c.clear cfg ev).arr = Vector.replicate 256 Entry.zero := by
  simp only [Ctr.clear]

@[simp] theorem Ctr.depthChange_mctl (cfg : Config) (ev : Nat) (c : Ctr) : (c.depthChange cfg ev).mctl = c.mctl := by
  simp only [Ctr.depthChange]

@[simp] theorem Ctr.depthChange_vsctl (cfg : Config) (ev : Nat) (c : Ctr) :
    (c.depthChange cfg ev).vsctl = c.vsctl := by
  simp only [Ctr.depthChange]

@[simp] theorem Ctr.depthChange_wrptr (cfg : Config) (ev : Nat) (c : Ctr) :
    (c.depthChange cfg ev).wrptr = c.wrptr := by
  simp only [Ctr.depthChange]

@[simp] theorem Ctr.depthChange_wrap (cfg : Config) (ev : Nat) (c : Ctr) : (c.depthChange cfg ev).wrap = c.wrap := by
  simp only [Ctr.depthChange]

@[simp] theorem Ctr.depthChange_frozen (cfg : Config) (ev : Nat) (c : Ctr) :
    (c.depthChange cfg ev).frozen = c.frozen := by
  simp only [Ctr.depthChange]

@[simp] theorem Ctr.depthChange_arr (cfg : Config) (ev : Nat) (c : Ctr) :
    (c.depthChange cfg ev).arr = drawArray cfg ev := by
  simp only [Ctr.depthChange]

@[simp] theorem Ctr.depthChange_ccCount (cfg : Config) (ev : Nat) (c : Ctr) :
    (c.depthChange cfg ev).ccCount = c.ccCount := by
  simp only [Ctr.depthChange]

@[simp] theorem Ctr.depthChange_ccOk (cfg : Config) (ev : Nat) (c : Ctr) : (c.depthChange cfg ev).ccOk = c.ccOk := by
  simp only [Ctr.depthChange]

end Sys2Proof.Machine
end

