-- ==== Sys2Proof/Laws/Ops.lean ====
section
/-! SUPPORT. For each shared operation, what it can do, said once. -/

namespace Sys2Proof.Machine

/-! ### Widths and registers -/

@[simp] theorem trunc_trunc (x : Xlen) (v : Word) : trunc x (trunc x v) = trunc x v := by
  cases x
  · simp only [trunc]
    ext k hk
    simp
  · rfl

@[simp] theorem trunc_x64 (v : Word) : trunc .x64 v = v := rfl

@[simp] theorem trunc_zero (x : Xlen) : trunc x 0 = 0 := by cases x <;> rfl

theorem trunc_getLsbD (x : Xlen) (v : Word) (k : Nat) :
    (trunc x v).getLsbD k = (decide (k < xbits x) && v.getLsbD k) := by
  cases x
  · simp only [trunc, xbits, BitVec.getLsbD_setWidth]
    by_cases h : k < 32
    · simp [h, Nat.lt_trans h (by decide : 32 < 64)]
    · simp [h]
  · simp only [trunc, xbits]
    by_cases h : k < 64
    · simp [h]
    · simp [h, BitVec.getLsbD_of_ge v k (by omega)]

theorem trunc_joinHalves (hi lo : Word) : trunc .x32 (joinHalves hi lo) = trunc .x32 lo := by
  simp only [trunc, joinHalves]
  ext k hk
  simp only [BitVec.getElem_setWidth, BitVec.getLsbD_setWidth, BitVec.getLsbD_append, BitVec.getLsbD_extractLsb']
  by_cases h : k < 32
  · simp [h]
  · simp [h]

/-- What a register write stores reads back as the value written, in the writer's XLEN. -/
@[simp] theorem State.trunc_widen (s : State) (k : Nat) (v : Word) : trunc s.x (s.widen k v) = trunc s.x v := by
  unfold State.widen
  split
  · rename_i h
    rw [h.1, trunc_joinHalves]
  · rfl

@[simp] theorem State.reg_zero (s : State) : s.reg 0 = 0 := rfl

@[simp] theorem State.trunc_reg (s : State) (r : Reg) : trunc s.x (s.reg r) = s.reg r := by
  unfold State.reg
  split
  · exact trunc_zero _
  · exact trunc_trunc _ _

@[simp] theorem State.setReg_x (s : State) (r : Reg) (v : Word) : (s.setReg r v).x = s.x := rfl

@[simp] theorem State.writeCsr_x (s : State) (c : Csr) (v : Word) : (s.writeCsr c v).x = s.x := by
  simp [State.x]

theorem State.reg_setReg_same (s : State) {r : Reg} (hr : r ≠ 0) (v : Word) : (s.setReg r v).reg r = trunc s.x v := by
  have h : (s.setReg r v).regs.get r.toFin = s.widen 8 v := by
    have h0 : ¬r = 0 := hr
    simp only [State.setReg, if_neg h0, Vector.get_eq_getElem]
    exact Vector.getElem_set_self _
  simp only [State.reg, hr, if_false, h, State.setReg_x, State.trunc_widen]

theorem State.regs_setReg_other (s : State) {r q : Reg} (h : q ≠ r) (v : Word) :
    (s.setReg r v).regs.get q.toFin = s.regs.get q.toFin := by
  have hv : r.toFin.val ≠ q.toFin.val := fun e => h (BitVec.eq_of_toNat_eq e.symm)
  unfold State.setReg
  split
  · rfl
  · simp only [Vector.get_eq_getElem]
    exact Vector.getElem_set_ne _ _ hv

/-! ### Kinds and landing modes -/

/-- CLASSIFY as the meanings use it is CLASSIFY as the statements spell it. -/
theorem kindOf_eq_classified (s : State) (i : Instr) (jumped : Bool) (table : Kind) :
    kindOf s.cfg i jumped table = s.classified i jumped table := by
  unfold kindOf State.classified
  split <;> rename_i h <;> rw [h] <;> rfl

/-- An aligned target is one the hart does not trap on. -/
theorem State.misaligned_of_aligned {s : State} {a : Word} (h : s.Aligned a) : s.misaligned a = false := by
  rcases h with h | h <;> simp [State.misaligned, h]

theorem hasMode_landS (cfg : Config) : hasMode cfg (landS cfg) = true := by
  unfold landS
  split <;> simp_all [hasMode]

theorem hasMode_landU (cfg : Config) : hasMode cfg (landU cfg) = true := by
  unfold landU
  split
  · simp_all [hasMode]
  · exact hasMode_landS cfg

/-- A trap return lands in a mode the hart has. -/
theorem hasMode_mretMode (cfg : Config) (m : MStatus) : hasMode cfg (mretMode cfg m) = true := by
  unfold mretMode
  split
  · rfl
  · split
    · simp_all [hasMode]
    · exact hasMode_landS cfg
  · split
    · simp_all [hasMode]
    · exact hasMode_landU cfg

theorem hasMode_sretMode (cfg : Config) (m : MStatus) (h : HStatus) : hasMode cfg (sretMode cfg m h) = true := by
  unfold sretMode
  split
  · split <;> simp_all [hasMode]
  · split <;> simp [hasMode_landS, hasMode_landU]

/-! ### Outcomes -/

/-- A trap is always taken, into the mode that `trapTarget` names. -/
theorem State.takeTrap_next (s : State) (i : Bool) (e : Exc) :
    s.takeTrap i e = .next (s.trapInto i e (s.trapTarget i e.cause)) := rfl

theorem State.raise_next (s : State) (e : Exc) :
    s.raise e = .next (s.trapInto false e (s.trapTarget false e.cause)) := rfl

theorem State.takeTrap_cases {s t : State} {i : Bool} {e : Exc} (h : s.takeTrap i e = .next t) :
    t = s.trapInto i e (s.trapTarget i e.cause) := (Host.Outcome.next.inj h).symm

/-- `mret` returns in M-mode and in Debug Mode, and traps in the others. -/
theorem execMret_cases {s t : State} (h : execMret s = .next t) :
    (s.mode = .M ∨ s.mode = .Debug)
        ∧ t = { s with mstatus := mretStatus s.cfg s.mstatus }.returnTo (mretMode s.cfg s.mstatus) s.mtrap.epc
      ∨ s.mode ≠ .M ∧ s.mode ≠ .Debug ∧ s.raise (excIllegal s .mret) = .next t := by
  unfold execMret at h
  split at h <;> rename_i hm
  all_goals first
    | exact .inl ⟨by simp [hm], (Host.Outcome.next.inj h).symm⟩
    | exact .inr ⟨by simp [hm], by simp [hm], h⟩

/-- `sret` returns from `strap` or from `vstrap`, or traps. -/
theorem execSret_cases {s t : State} (h : execSret s = .next t) :
    s.sretHs = .next t ∧ (s.mode = .M ∨ s.mode = .Debug ∨ s.mode = .S)
      ∨ s.sretVs = .next t ∧ s.mode = .VS ∨ ∃ e, s.raise e = .next t := by
  unfold execSret at h
  split at h <;> rename_i hm
  all_goals first
    | exact .inr (.inr ⟨_, h⟩)
    | (split at h
       all_goals first
         | exact .inl ⟨h, by simp [hm]⟩
         | exact .inr (.inl ⟨h, hm⟩)
         | exact .inr (.inr ⟨_, h⟩))

theorem State.trapTarget_cases (s : State) (i : Bool) (c : BitVec 6) :
    s.trapTarget i c = .M ∨ s.trapTarget i c = .S ∧ s.cfg.hasS = true
      ∨ s.trapTarget i c = .VS ∧ s.cfg.hasS = true ∧ s.cfg.hasH = true := by
  rcases i <;> simp only [State.trapTarget] <;> cases s.cfg.hasS <;> cases s.cfg.hasH <;> simp <;> grind

/-- A jump traps on a misaligned target; else it writes the link and retires. -/
theorem State.jump_cases {s t : State} {k : Kind} {a : Word} {r : Reg} {l : Word} (h : s.jump k a r l = .next t) :
    (s.misaligned a = true ∧ s.raise (excMisaligned a) = .next t)
      ∨ (s.misaligned a = false ∧ t = (s.setReg r l).retire k a) := by
  unfold State.jump at h
  split at h
  · exact .inl ⟨‹_›, h⟩
  · exact .inr ⟨Bool.eq_false_iff.mpr ‹_›, (Host.Outcome.next.inj h).symm⟩

/-- A branch is not taken, or taken to an aligned target, or traps. -/
theorem State.branch_cases {s t : State} {i : Instr} {b : Bool} {a : Word} {n : Nat} (h : s.branch i b a n = .next t) :
    (b = false ∧ t = s.retire (kindOfBranch s.cfg i false) (s.pcNext n))
      ∨ (b = true ∧ s.misaligned a = false ∧ t = s.retire (kindOfBranch s.cfg i true) a)
      ∨ (b = true ∧ s.misaligned a = true ∧ s.raise (excMisaligned a) = .next t) := by
  unfold State.branch at h
  split at h
  · split at h
    · exact .inr (.inr ⟨‹_›, ‹_›, h⟩)
    · exact .inr (.inl ⟨‹_›, Bool.eq_false_iff.mpr ‹_›, (Host.Outcome.next.inj h).symm⟩)
  · exact .inl ⟨Bool.eq_false_iff.mpr ‹_›, (Host.Outcome.next.inj h).symm⟩

/-- A compressed instruction runs where the C extension exists, else it is illegal. -/
theorem State.compressed_cases {s t : State} {i : Instr} {o : Out} (h : s.compressed i o = .next t) :
    (s.cfg.hasC = true ∧ o = .next t) ∨ (s.cfg.hasC = false ∧ s.raise (excIllegal s i) = .next t) := by
  unfold State.compressed at h
  split at h
  · exact .inl ⟨‹_›, h⟩
  · exact .inr ⟨Bool.eq_false_iff.mpr ‹_›, h⟩

/-- A CSR instruction traps, or reads, or reads and writes. -/
theorem State.csrOp_cases {s t : State} {i : Instr} {n : CsrNum} {r : Reg} {w : Option (Word → Word)}
    (h : s.csrOp i n r w = .next t) :
    (∃ e, s.raise e = .next t)
      ∨ (∃ c, csrOf n = some c ∧ s.checkAccess c = .pass ∧ s.selectOutside c = false
        ∧ ((w = none ∧ t = s.csrDone r (s.readCsr c))
          ∨ ∃ f, w = some f ∧ t = (s.writeCsr c (f (s.readCsr c))).csrDone r (s.readCsr c))) := by
  unfold State.csrOp at h
  split at h
  · exact .inl ⟨_, h⟩
  · rename_i c hc
    split at h
    · exact .inl ⟨_, h⟩
    · exact .inl ⟨_, h⟩
    · rename_i hp
      split at h
      · cases h
      · rename_i hs
        refine .inr ⟨c, hc, hp, by simpa using hs, ?_⟩
        split at h
        · exact .inl ⟨rfl, (Host.Outcome.next.inj h).symm⟩
        · exact .inr ⟨_, rfl, (Host.Outcome.next.inj h).symm⟩

/-- A CSR instruction that the check allows. -/
theorem State.csrOp_next {s : State} {n : CsrNum} {c : Csr} (hc : csrOf n = some c) (hp : s.checkAccess c = .pass)
    (hs : s.selectOutside c = false) (i : Instr) (r : Reg) (w : Option (Word → Word)) :
    s.csrOp i n r w =
      match w with
      | none => .next (s.csrDone r (s.readCsr c))
      | some f => .next ((s.writeCsr c (f (s.readCsr c))).csrDone r (s.readCsr c)) := by
  simp only [State.csrOp, hc, hp, hs]
  rfl

/-! ### The step -/

/-- An instruction that ran was fetched, and is a row of the table or one of the two helpers. -/
theorem State.runInstr_cases {s t : State} (h : s.runInstr = .next t) :
    ∃ bytes, s.fetchBytes = some bytes
      ∧ ((∃ i rest, decode bytes = .ok (i, rest) ∧ exec i s = .next t)
        ∨ ∃ i, decodeHost bytes = some i ∧ execHost i s = .next t) := by
  unfold State.runInstr at h
  split at h
  · cases h
  · rename_i bytes hb
    refine ⟨bytes, hb, ?_⟩
    split at h
    · exact .inl ⟨_, _, ‹_›, h⟩
    · split at h
      · exact .inr ⟨_, ‹_›, h⟩
      · cases h

/-- A step runs an instruction or takes the environment's next event. -/
theorem step_cases {s t : State} (h : step s = .next t) :
    (∃ es, State.runInstr { s with env := es } = .next t)
      ∨ ∃ e es, s.env = e :: es ∧ envStep e { s with env := es } = .next t := by
  unfold step State.cycle at h
  split at h
  · rename_i he
    refine .inl ⟨s.env, ?_⟩
    exact h
  · exact .inl ⟨_, h⟩
  · exact .inr ⟨_, _, ‹_›, h⟩

end Sys2Proof.Machine
end

