-- ==== Sys2Proof/Laws/PerInstr.lean ====
section
/-! SUPPORT. The per-instruction family `FixedBits`: each constructor's encoding has the length and the fixed bits of
its row of spec/opcode_table.json. -/

namespace Sys2Proof.Laws.FixedBits

/-- Mask and match of a constructor's row, in the row's width. -/
def row : Instr → Encoding × Encoding
  | .csrrw _ _ _ => (.word 0x0000707F, .word 0x00001073)
  | .csrrs _ _ _ => (.word 0x0000707F, .word 0x00002073)
  | .csrrc _ _ _ => (.word 0x0000707F, .word 0x00003073)
  | .csrrwi _ _ _ => (.word 0x0000707F, .word 0x00005073)
  | .csrrsi _ _ _ => (.word 0x0000707F, .word 0x00006073)
  | .csrrci _ _ _ => (.word 0x0000707F, .word 0x00007073)
  | .jal _ _ => (.word 0x0000007F, .word 0x0000006F)
  | .jalr _ _ _ => (.word 0x0000707F, .word 0x00000067)
  | .beq _ _ _ => (.word 0x0000707F, .word 0x00000063)
  | .bne _ _ _ => (.word 0x0000707F, .word 0x00001063)
  | .blt _ _ _ => (.word 0x0000707F, .word 0x00004063)
  | .bge _ _ _ => (.word 0x0000707F, .word 0x00005063)
  | .bltu _ _ _ => (.word 0x0000707F, .word 0x00006063)
  | .bgeu _ _ _ => (.word 0x0000707F, .word 0x00007063)
  | .cj _ => (.half 0xE003, .half 0xA001)
  | .cjal _ => (.half 0xE003, .half 0x2001)
  | .cjr _ => (.half 0xF07F, .half 0x8002)
  | .cjalr _ => (.half 0xF07F, .half 0x9002)
  | .cbeqz _ _ => (.half 0xE003, .half 0xC001)
  | .cbnez _ _ => (.half 0xE003, .half 0xE001)
  | .cebreak => (.half 0xFFFF, .half 0x9002)
  | .mret => (.word 0xFFFFFFFF, .word 0x30200073)
  | .sret => (.word 0xFFFFFFFF, .word 0x10200073)
  | .ecall => (.word 0xFFFFFFFF, .word 0x00000073)
  | .ebreak => (.word 0xFFFFFFFF, .word 0x00100073)

/-- An encoding of the row's width whose masked bits are the row's. -/
def fits : Encoding × Encoding → Encoding → Prop
  | (.half mask, .half bits), .half w => w &&& mask = bits
  | (.word mask, .word bits), .word w => w &&& mask = bits
  | _, _ => False

/-- The instruction's encoding fits its row. -/
def Statement (i : Instr) : Prop := fits (row i) (encodeInstr i)

/-- One bit at a time. -/
theorem word_fits {mask bits w : BitVec 32} (h : ∀ k, k < 32 → (w &&& mask).getLsbD k = bits.getLsbD k) :
    fits (.word mask, .word bits) (.word w) := BitVec.eq_of_getLsbD_eq h

/-- One bit at a time. -/
theorem half_fits {mask bits w : BitVec 16} (h : ∀ k, k < 16 → (w &&& mask).getLsbD k = bits.getLsbD k) :
    fits (.half mask, .half bits) (.half w) := BitVec.eq_of_getLsbD_eq h

theorem csr_fits (csr : CsrNum) (rs1 : BitVec 5) (f : BitVec 3) (rd : Reg) :
    fits (.word 0x707F, .word (0#17 ++ f ++ 0#5 ++ 0b1110011#7)) (encodeCsr csr rs1 f rd) := by
  refine word_fits fun k hk => ?_
  simp only [BitVec.getLsbD_and, BitVec.getLsbD_append]
  interval_cases k <;> simp

theorem branch_fits (f : BitVec 3) (rs1 rs2 : Reg) (off : BitVec 13) :
    fits (.word 0x707F, .word (0#17 ++ f ++ 0#5 ++ 0b1100011#7)) (encodeBranch f rs1 rs2 off) := by
  refine word_fits fun k hk => ?_
  simp only [BitVec.getLsbD_and, BitVec.getLsbD_append]
  interval_cases k <;> simp

theorem cj_fits (f : BitVec 3) (off : BitVec 12) :
    fits (.half 0xE003, .half (f ++ 0#11 ++ 0b01#2)) (encodeCJ f off) := by
  refine half_fits fun k hk => ?_
  simp only [BitVec.getLsbD_and, BitVec.getLsbD_append]
  interval_cases k <;> simp

theorem cb_fits (f : BitVec 3) (rs1 : Reg) (off : BitVec 9) :
    fits (.half 0xE003, .half (f ++ 0#11 ++ 0b01#2)) (encodeCB f rs1 off) := by
  refine half_fits fun k hk => ?_
  simp only [BitVec.getLsbD_and, BitVec.getLsbD_append]
  interval_cases k <;> simp

theorem cr_fits (f : BitVec 4) (rs1 : Reg) :
    fits (.half 0xF07F, .half (f ++ 0#10 ++ 0b10#2)) (encodeCR f rs1) := by
  refine half_fits fun k hk => ?_
  simp only [BitVec.getLsbD_and, BitVec.getLsbD_append]
  interval_cases k <;> simp

theorem csrrw (rd : Reg) (csr : CsrNum) (rs1 : Reg) : Statement (.csrrw rd csr rs1) := csr_fits csr rs1 1 rd

theorem csrrs (rd : Reg) (csr : CsrNum) (rs1 : Reg) : Statement (.csrrs rd csr rs1) := csr_fits csr rs1 2 rd

theorem csrrc (rd : Reg) (csr : CsrNum) (rs1 : Reg) : Statement (.csrrc rd csr rs1) := csr_fits csr rs1 3 rd

theorem csrrwi (rd : Reg) (csr : CsrNum) (uimm : BitVec 5) : Statement (.csrrwi rd csr uimm) := csr_fits csr uimm 5 rd

theorem csrrsi (rd : Reg) (csr : CsrNum) (uimm : BitVec 5) : Statement (.csrrsi rd csr uimm) := csr_fits csr uimm 6 rd

theorem csrrci (rd : Reg) (csr : CsrNum) (uimm : BitVec 5) : Statement (.csrrci rd csr uimm) := csr_fits csr uimm 7 rd

theorem jal (rd : Reg) (off : BitVec 21) : Statement (.jal rd off) := by
  refine word_fits fun k hk => ?_
  simp only [BitVec.getLsbD_and, BitVec.getLsbD_append]
  interval_cases k <;> simp

theorem jalr (rd : Reg) (rs1 : Reg) (imm : BitVec 12) : Statement (.jalr rd rs1 imm) := by
  refine word_fits fun k hk => ?_
  simp only [BitVec.getLsbD_and, BitVec.getLsbD_append]
  interval_cases k <;> simp

theorem beq (rs1 : Reg) (rs2 : Reg) (off : BitVec 13) : Statement (.beq rs1 rs2 off) := branch_fits 0 rs1 rs2 off

theorem bne (rs1 : Reg) (rs2 : Reg) (off : BitVec 13) : Statement (.bne rs1 rs2 off) := branch_fits 1 rs1 rs2 off

theorem blt (rs1 : Reg) (rs2 : Reg) (off : BitVec 13) : Statement (.blt rs1 rs2 off) := branch_fits 4 rs1 rs2 off

theorem bge (rs1 : Reg) (rs2 : Reg) (off : BitVec 13) : Statement (.bge rs1 rs2 off) := branch_fits 5 rs1 rs2 off

theorem bltu (rs1 : Reg) (rs2 : Reg) (off : BitVec 13) : Statement (.bltu rs1 rs2 off) := branch_fits 6 rs1 rs2 off

theorem bgeu (rs1 : Reg) (rs2 : Reg) (off : BitVec 13) : Statement (.bgeu rs1 rs2 off) := branch_fits 7 rs1 rs2 off

theorem cj (off : BitVec 12) : Statement (.cj off) := cj_fits 0b101 off

theorem cjal (off : BitVec 12) : Statement (.cjal off) := cj_fits 0b001 off

theorem cjr (rs1 : Reg) : Statement (.cjr rs1) := cr_fits 0b1000 rs1

theorem cjalr (rs1 : Reg) : Statement (.cjalr rs1) := cr_fits 0b1001 rs1

theorem cbeqz (rs1 : Reg) (off : BitVec 9) : Statement (.cbeqz rs1 off) := cb_fits 0b110 rs1 off

theorem cbnez (rs1 : Reg) (off : BitVec 9) : Statement (.cbnez rs1 off) := cb_fits 0b111 rs1 off

theorem cebreak : Statement .cebreak := rfl

theorem mret : Statement .mret := rfl

theorem sret : Statement .sret := rfl

theorem ecall : Statement .ecall := rfl

theorem ebreak : Statement .ebreak := rfl

end Sys2Proof.Laws.FixedBits
end

