-- ==== Sys2Proof/Laws/Recorder.lean ====
section
/-! SUPPORT. What each event can do to the recorder, said once, and the arithmetic of the ring. -/

namespace Sys2Proof.Machine

theorem Ctr.depth_pos (c : Ctr) : 0 < c.depth := by
  unfold Ctr.depth
  omega

theorem Ctr.depth_le (c : Ctr) : c.depth ≤ 256 := by
  have := (depthField c.mctl).isLt
  unfold Ctr.depth
  omega

@[simp] theorem Ctr.slot_val (c : Ctr) (n : Nat) : (c.slot n).val = n % c.depth := rfl

@[simp] theorem Ctr.wp_val (c : Ctr) : c.wp.val = c.wrptr.toNat % c.depth := rfl

theorem Ctr.phys_val (c : Ctr) (i : Nat) : (c.phys i).val = (c.wrptr.toNat % c.depth + c.depth - 1 - i) % c.depth := rfl

theorem Ctr.wp_lt (c : Ctr) : c.wp.val < c.depth := Nat.mod_lt _ c.depth_pos

theorem Ctr.phys_lt (c : Ctr) (i : Nat) : (c.phys i).val < c.depth := Nat.mod_lt _ c.depth_pos

/-- The depth is `mctrcontrol`'s alone. -/
theorem Ctr.depth_congr {c d : Ctr} (h : c.mctl = d.mctl) : c.depth = d.depth := by
  unfold Ctr.depth
  rw [h]

/-- A retired transfer changes nothing, pushes a record, pops, or swaps. -/
theorem Ctr.onRetire_cases (cfg : Config) (c : Ctr) (k : Kind) (m : Mode) (pc target : Word) (misp : Bool) :
    let s := pcField cfg (xlenOf cfg m) pc
    let t := pcField cfg (xlenOf cfg m) target
    c.onRetire cfg k m pc target misp = c
      ∨ (∃ ras, c.onRetire cfg k m pc target misp = c.push cfg (c.makeRecord cfg ras (typeCode k) s t misp))
      ∨ c.onRetire cfg k m pc target misp = c.rasPop cfg
      ∨ c.onRetire cfg k m pc target misp = c.rasSwap cfg s t misp := by
  simp only [Ctr.onRetire]
  split
  · exact .inl rfl
  · split
    · exact .inl rfl
    · split
      · exact .inl rfl
      · split
        · cases k
          all_goals
            first
            | exact .inl rfl
            | exact .inr (.inl ⟨true, rfl⟩)
            | exact .inr (.inr (.inl rfl))
            | exact .inr (.inr (.inr rfl))
        · split
          · exact .inl rfl
          · exact .inr (.inl ⟨false, rfl⟩)

/-- A trap changes nothing, freezes, or pushes one record; the PC a partial record hides is 0. -/
theorem Ctr.onTrap_cases (cfg : Config) (c : Ctr) (i : Bool) (cause : BitVec 6) (sm tm : Mode) (epc handler : Word)
    (misp : Bool) :
    c.onTrap cfg i cause sm tm epc handler misp = c
      ∨ c.onTrap cfg i cause sm tm epc handler misp = { c with frozen := true }
      ∨ ∃ ty s t, (s = 0 ∨ s = pcField cfg (xlenOf cfg sm) epc) ∧ (t = 0 ∨ t = pcField cfg (xlenOf cfg tm) handler)
        ∧ c.onTrap cfg i cause sm tm epc handler misp = c.push cfg (c.makeRecord cfg false ty s t misp) := by
  unfold Ctr.onTrap
  split
  · exact .inl rfl
  · split
    · exact .inr (.inl rfl)
    · split
      · exact .inl rfl
      · split
        · exact .inl rfl
        · simp only [Ctr.recordTrap]
          generalize (if i = true then ctlBit (c.cfgOf cfg sm tm) .intrinh
            else ctlBit (c.cfgOf cfg sm tm) .excinh) = inh
          split
          · split
            · split
              · exact .inl rfl
              · exact .inr (.inr ⟨_, _, _, .inr rfl, .inr rfl, rfl⟩)
            · split
              · exact .inr (.inr ⟨_, _, _, .inr rfl, .inl rfl, rfl⟩)
              · exact .inl rfl
          · split
            · split
              · exact .inl rfl
              · exact .inr (.inr ⟨_, _, _, .inl rfl, .inr rfl, rfl⟩)
            · exact .inl rfl

/-- A trap return changes nothing or pushes one record. -/
theorem Ctr.onTrapReturn_cases (cfg : Config) (c : Ctr) (sm tm : Mode) (pc target : Word) (misp : Bool) :
    c.onTrapReturn cfg sm tm pc target misp = c
      ∨ ∃ t, (t = 0 ∨ t = pcField cfg (xlenOf cfg tm) target)
        ∧ c.onTrapReturn cfg sm tm pc target misp =
          c.push cfg (c.makeRecord cfg false returnType (pcField cfg (xlenOf cfg sm) pc) t misp) := by
  simp only [Ctr.onTrapReturn]
  split
  · exact .inl rfl
  · split
    · exact .inl rfl
    · split
      · exact .inl rfl
      · split
        · exact .inl rfl
        · split
          · exact .inl rfl
          · refine .inr ⟨_, ?_, rfl⟩
            split
            · exact .inr rfl
            · exact .inl rfl

/-- What is applied after every event touches the validity of the count alone. -/
theorem Ctr.settle_cases (cfg : Config) (c : Ctr) (m : Mode) :
    c.settle cfg m = c ∨ c.settle cfg m = { c with ccOk := false } := by
  unfold Ctr.settle
  split
  · exact .inr rfl
  · exact .inl rfl

/-- A write of `mctrcontrol` stores, and then clears, or changes the depth, or does no more. -/
theorem Ctr.writeMctl_cases (cfg : Config) (ev : Nat) (c : Ctr) (v cover protect : Word) :
    let d := { c with mctl := c.mctlAfter cfg v cover protect }
    ((cover.getLsbD 7 && v.getLsbD 7) = true ∧ c.writeMctl cfg ev v cover protect = d.clear cfg ev)
      ∨ ((cover.getLsbD 7 && v.getLsbD 7) = false
        ∧ (depthField d.mctl ≠ depthField c.mctl ∧ c.writeMctl cfg ev v cover protect = d.depthChange cfg ev
          ∨ depthField d.mctl = depthField c.mctl ∧ c.writeMctl cfg ev v cover protect = d)) := by
  simp only [Ctr.writeMctl]
  split
  · exact .inl ⟨‹_›, rfl⟩
  · refine .inr ⟨Bool.eq_false_iff.mpr ‹_›, ?_⟩
    split
    · exact .inl ⟨‹_›, rfl⟩
    · rename_i h
      exact .inr ⟨not_not.mp h, rfl⟩

@[simp] theorem Ctr.writeMctl_mctl (cfg : Config) (ev : Nat) (c : Ctr) (v cover protect : Word) :
    (c.writeMctl cfg ev v cover protect).mctl = c.mctlAfter cfg v cover protect := by
  rcases c.writeMctl_cases cfg ev v cover protect with ⟨_, h⟩ | ⟨_, ⟨_, h⟩ | ⟨_, h⟩⟩ <;> simp [h]

@[simp] theorem Ctr.writeMctl_vsctl (cfg : Config) (ev : Nat) (c : Ctr) (v cover protect : Word) :
    (c.writeMctl cfg ev v cover protect).vsctl = c.vsctl := by
  rcases c.writeMctl_cases cfg ev v cover protect with ⟨_, h⟩ | ⟨_, ⟨_, h⟩ | ⟨_, h⟩⟩ <;> simp [h]

/-- A write of `vsctrcontrol` stores, and clears where that is asked for and effective. -/
theorem Ctr.writeVsctl_cases (cfg : Config) (ev : Nat) (c : Ctr) (v cover : Word) (eff : Bool) :
    let d := { c with vsctl := c.vsctlAfter cfg v cover }
    ((cover.getLsbD 7 && v.getLsbD 7 && eff) = true ∧ c.writeVsctl cfg ev v cover eff = d.clear cfg ev)
      ∨ ((cover.getLsbD 7 && v.getLsbD 7 && eff) = false ∧ c.writeVsctl cfg ev v cover eff = d) := by
  simp only [Ctr.writeVsctl]
  split
  · exact .inl ⟨‹_›, rfl⟩
  · exact .inr ⟨Bool.eq_false_iff.mpr ‹_›, rfl⟩

/-- No event of the hart changes a control register. -/
theorem Ctr.onRetire_mctl (cfg : Config) (c : Ctr) (k : Kind) (m : Mode) (pc target : Word) (misp : Bool) :
    (c.onRetire cfg k m pc target misp).mctl = c.mctl ∧ (c.onRetire cfg k m pc target misp).vsctl = c.vsctl := by
  rcases c.onRetire_cases cfg k m pc target misp with h | ⟨_, h⟩ | h | h <;> rw [h] <;> simp

theorem Ctr.onTrap_mctl (cfg : Config) (c : Ctr) (i : Bool) (cause : BitVec 6) (sm tm : Mode) (epc handler : Word)
    (misp : Bool) :
    (c.onTrap cfg i cause sm tm epc handler misp).mctl = c.mctl
      ∧ (c.onTrap cfg i cause sm tm epc handler misp).vsctl = c.vsctl := by
  rcases c.onTrap_cases cfg i cause sm tm epc handler misp with h | h | ⟨_, _, _, _, _, h⟩ <;> rw [h] <;> simp

theorem Ctr.onTrapReturn_mctl (cfg : Config) (c : Ctr) (sm tm : Mode) (pc target : Word) (misp : Bool) :
    (c.onTrapReturn cfg sm tm pc target misp).mctl = c.mctl
      ∧ (c.onTrapReturn cfg sm tm pc target misp).vsctl = c.vsctl := by
  rcases c.onTrapReturn_cases cfg sm tm pc target misp with h | ⟨_, _, h⟩ <;> rw [h] <;> simp

end Sys2Proof.Machine
end

