-- ==== Sys2Proof/Tests/Slice0.lean ====
section
/-! SUPPORT. Tests. Words are from the examples of spec/30_encoding.md and spec/45_transfer_type_filtering.md, results
from the vectors of spec/95_test_vectors.md; the last part shows for every statement that its hypotheses can be met,
each clause of it. -/

namespace Sys2Proof.Tests

open Sys2Proof Sys2Proof.Machine

/-! ### Well-formedness -/

theorem test_wf_jal_odd : (Instr.jal 1 3).wf = false := by decide
theorem test_wf_beq_odd : (Instr.beq 1 2 5).wf = false := by decide
theorem test_wf_bgeu_odd : (Instr.bgeu 1 2 0x1FFF).wf = false := by decide
theorem test_wf_cj_odd : (Instr.cj 1).wf = false := by decide
theorem test_wf_cjr_x0 : (Instr.cjr 0).wf = false := by decide
theorem test_wf_cjalr_x0 : (Instr.cjalr 0).wf = false := by decide
theorem test_wf_cbeqz_x7 : (Instr.cbeqz 7 4).wf = false := by decide
theorem test_wf_cbnez_x16 : (Instr.cbnez 16 4).wf = false := by decide
theorem test_wf_cbnez_odd : (Instr.cbnez 8 5).wf = false := by decide
theorem test_config_depths_crossed :
    (Config.wf { resetConfig with depthMin := .d64, depthMax := .d32 }) = false := by decide
theorem test_config_wrptr_too_small : (Config.wf { resetConfig with wrptrBits := 7 }) = false := by decide
theorem test_config_eten_without_mte : (Config.wf { resetConfig with implM := [.eten, .ste] }) = false := by decide
theorem test_config_eten_without_ste : (Config.wf { resetConfig with implM := [.eten, .mte] }) = false := by decide
theorem test_config_eten_without_vste :
    (Config.wf { resetConfig with implM := [.eten, .mte, .ste], implVS := [] }) = false := by decide
theorem test_config_reset : resetConfig.wf = true := by decide

/-! ### Decoding: one word of every row, written out from the formats of the spec -/

theorem test_decode_csrrw : decodeTableWord 32 0b00111000000100101001000001110011 = some (.csrrw 0 0x381 5) := by decide
theorem test_decode_csrrs : decodeTableWord 32 0b00111000001100000010010101110011 = some (.csrrs 10 0x383 0) := by decide
theorem test_decode_csrrc : decodeTableWord 32 0x3832B073 = some (.csrrc 0 0x383 5) := by decide
theorem test_decode_csrrwi : decodeTableWord 32 0x38305073 = some (.csrrwi 0 0x383 0) := by decide
theorem test_decode_csrrsi : decodeTableWord 32 0x3810E073 = some (.csrrsi 0 0x381 1) := by decide
theorem test_decode_csrrci : decodeTableWord 32 0x3813F073 = some (.csrrci 0 0x381 7) := by decide
theorem test_decode_jal : decodeTableWord 32 0b00000000110000000000000011101111 = some (.jal 1 12) := by decide
theorem test_decode_jal_back : decodeTableWord 32 0xFF9FF06F = some (.jal 0 (-8)) := by decide
theorem test_decode_jalr : decodeTableWord 32 0x00008067 = some (.jalr 0 1 0) := by decide
theorem test_decode_beq : decodeTableWord 32 0b00000000101101010000100001100011 = some (.beq 10 11 16) := by decide
theorem test_decode_bne : decodeTableWord 32 0xFE051CE3 = some (.bne 10 0 (-8)) := by decide
theorem test_decode_blt : decodeTableWord 32 0x00B54863 = some (.blt 10 11 16) := by decide
theorem test_decode_bge : decodeTableWord 32 0xFEB55EE3 = some (.bge 10 11 (-4)) := by decide
theorem test_decode_bltu : decodeTableWord 32 0x00B56863 = some (.bltu 10 11 16) := by decide
theorem test_decode_bgeu : decodeTableWord 32 0x00B57863 = some (.bgeu 10 11 16) := by decide
theorem test_decode_cj : decodeTableWord 16 0b1010000000100001 = some (.cj 8) := by decide
theorem test_decode_cjal : decodeTableWord 16 0x2801 = some (.cjal 16) := by decide
theorem test_decode_cjr : decodeTableWord 16 0b1000000010000010 = some (.cjr 1) := by decide
theorem test_decode_cjalr : decodeTableWord 16 0x9502 = some (.cjalr 10) := by decide
theorem test_decode_cbeqz : decodeTableWord 16 0b1100000000011001 = some (.cbeqz 8 6) := by decide
theorem test_decode_cbnez : decodeTableWord 16 0xFC75 = some (.cbnez 8 (-4)) := by decide
theorem test_decode_cebreak : decodeTableWord 16 0x9002 = some .cebreak := by decide
theorem test_decode_mret : decodeTableWord 32 0x30200073 = some .mret := by decide
theorem test_decode_sret : decodeTableWord 32 0x10200073 = some .sret := by decide
theorem test_decode_ecall : decodeTableWord 32 0x00000073 = some .ecall := by decide
theorem test_decode_ebreak : decodeTableWord 32 0x00100073 = some .ebreak := by decide
theorem test_encode_bge : encode (.bge 10 11 (-4)) = [0xE3, 0x5E, 0xB5, 0xFE] := by decide
theorem test_reserved_cjr_x0 : decodeEncoding (.half 0x8002) = .error .reservedCJr := by decide
theorem test_zero_word_refused : decodeTableWord 32 0 = none := by decide

/-! ### One step of each instruction -/

/-- The next state of an outcome. -/
def nextOf : Out → Option State
  | .next t => some t
  | .fault _ => none
  | .refused _ => none

/-- An outcome that has a next state is that next state. -/
theorem next_of_isSome {o : Out} (h : (nextOf o).isSome = true) : ∃ t, o = .next t := by
  cases o with
  | next t => exact ⟨t, rfl⟩
  | fault f => cases h
  | refused r => cases h

/-- What a test looks at: pc, mode, `mctrstatus`, `ctrsource` and `ctrdata` of logical entry 0. -/
def look (o : Out) : Option (Word × Mode × Word × Word × Word) :=
  (nextOf o).map fun t => (t.pc, t.mode, t.ctr.statusWord, (t.ctr.entry 0).src, (t.ctr.entry 0).data)

/-- The reset state (RV32, M-mode) at a pc with a value in `mctl`. -/
def at32 (pc mctl : Word) : State := { State.reset with pc := pc, ctr := { Ctr.reset with mctl := mctl } }

/-- RV64 parameters: the conventions of spec/95_test_vectors.md. -/
def cfg64 : Config :=
  { resetConfig with mxlen := .x64, sxlen := .x64, uxlen := .x64, vsxlen := .x64, vuxlen := .x64 }

/-- The same on RV64, with every state-enable bit set. -/
def at64 (pc mctl : Word) : State :=
  { at32 pc mctl with cfg := cfg64, mstateen0 := stateenMask, hstateen0 := stateenMask }

/-- With a value in a general register. -/
def withReg (s : State) (r : Fin 32) (v : Word) : State := { s with regs := s.regs.set r v }

/-- In another mode. -/
def inMode (s : State) (m : Mode) : State := { s with mode := m }

/-- V40-19. -/
theorem test_csrrsi_sets : (nextOf (exec (.csrrsi 0 0x381 4) (at64 0 0x1001))).map (·.ctr.mctl) = some 0x1005 := by
  decide
/-- V40-20. -/
theorem test_csrrci_clears : (nextOf (exec (.csrrci 0 0x381 1) (at64 0 0x5))).map (·.ctr.mctl) = some 0x4 := by
  decide
/-- V40-18: no write with x0. -/
theorem test_csrrs_x0_only_reads :
    (nextOf (exec (.csrrs 5 0x381 0) (at64 0 0x1001))).map (fun t => (t.ctr.mctl, t.reg 5)) = some (0x1001, 0x1001) := by
  decide
/-- V40-4: M and MTE survive a write of 0 to `sctrcontrol`. -/
theorem test_csrrw_sctrcontrol_keeps_m :
    (nextOf (exec (.csrrw 0 0x181 5) (inMode (at64 0 0x107) .S))).map (·.ctr.mctl) = some 0x101 := by decide
/-- V40-6: a guest writes `vsctl`, and DEPTH is not written. -/
theorem test_csrrw_guest_sctrcontrol :
    (nextOf (exec (.csrrw 0 0x181 5) (inMode (withReg (at64 0 0x30001) 5 0xF0286) .VS))).map
      (fun t => (t.ctr.mctl, t.ctr.vsctl)) = some (0x30001, 0x206) := by decide
/-- V60-3: setting FROZEN with `csrrs` keeps WRPTR. -/
theorem test_csrrs_freezes :
    (nextOf (exec (.csrrs 0 0x383 5) (withReg { at64 0 1 with ctr := { Ctr.reset with mctl := 1, wrptr := 4 } } 5 0x8000))).map
      (·.ctr.statusWord) = some 0x8004 := by decide
/-- Bits of `mctrstatus` cleared by R142. -/
theorem test_csrrc_unfreezes :
    (nextOf (exec (.csrrc 0 0x383 5) (withReg { at64 0 1 with ctr := { Ctr.reset with wrptr := 4, frozen := true } } 5 0x8001))).map
      (·.ctr.statusWord) = some 0x0004 := by decide
/-- R143: `csrrwi` writes its immediate, 0 here. -/
theorem test_csrrwi_zero :
    (nextOf (exec (.csrrwi 0 0x383 0) { at64 0 1 with ctr := { Ctr.reset with wrptr := 4, frozen := true } })).map
      (·.ctr.statusWord) = some 0 := by decide

/-- The example of R260. -/
theorem test_jal_records :
    look (exec (.jal 1 12) (at32 0x80000008 1)) = some (0x80000014, .M, 0x0001, 0x80000009, 0x9) := by decide
theorem test_jal_links :
    (nextOf (exec (.jal 1 12) (at32 0x80000008 1))).map (·.reg 1) = some 0x8000000C := by decide
/-- R261: the base is read before the link is written. -/
theorem test_jalr_reads_before_link :
    (nextOf (exec (.jalr 1 1 0) (withReg (at32 0x80000018 1) 1 0x8000000D))).map (fun t => (t.pc, t.reg 1))
      = some (0x8000000C, 0x8000001C) := by decide
/-- P1: the return. -/
theorem test_jalr_return :
    look (exec (.jalr 0 1 0) (withReg (at32 0x80000018 1) 1 0x8000000C))
      = some (0x8000000C, .M, 0x0001, 0x80000019, 0xD) := by decide
/-- The example of R262. -/
theorem test_beq_taken :
    look (exec (.beq 10 11 16) (at32 0x80000020 1)) = some (0x80000030, .M, 0x0001, 0x80000021, 0x5) := by decide
/-- The example of R243: not taken, NTBREN set. -/
theorem test_beq_not_taken :
    look (exec (.beq 10 11 16) (withReg (at32 0x80000020 0x1000000001) 10 1))
      = some (0x80000024, .M, 0x0001, 0x80000021, 0x4) := by decide
/-- The example of R263: not taken and not recorded. -/
theorem test_bne_not_taken :
    look (exec (.bne 10 0 (-8)) (at32 0x80000030 1)) = some (0x80000034, .M, 0x0000, 0, 0) := by decide
/-- The example of R244: taken. -/
theorem test_bne_taken :
    look (exec (.bne 10 0 (-8)) (withReg (at32 0x80000030 1) 10 5))
      = some (0x80000028, .M, 0x0001, 0x80000031, 0x5) := by decide
/-- The example of R264: -1 is less than 0. -/
theorem test_blt_signed :
    (nextOf (exec (.blt 10 11 16) (withReg (at32 0x80000020 1) 10 0xFFFFFFFF))).map (·.pc) = some 0x80000030 := by
  decide
/-- The example of R265. -/
theorem test_bge_equal : (nextOf (exec (.bge 10 11 (-4)) (at32 0x80000020 1))).map (·.pc) = some 0x8000001C := by
  decide
/-- The example of R266. -/
theorem test_bltu_unsigned :
    (nextOf (exec (.bltu 10 11 16) (withReg (at32 0x80000020 1) 10 0xFFFFFFFF))).map (·.pc) = some 0x80000024 := by
  decide
/-- The example of R267. -/
theorem test_bgeu_equal : (nextOf (exec (.bgeu 10 11 16) (at32 0x80000020 1))).map (·.pc) = some 0x80000030 := by
  decide
/-- The example of R268. -/
theorem test_cj_records :
    look (exec (.cj 8) (at32 0x80000040 1)) = some (0x80000048, .M, 0x0001, 0x80000041, 0xB) := by decide
/-- The example of R269. -/
theorem test_cjal_records :
    look (exec (.cjal 16) (at32 0x1000 1)) = some (0x1010, .M, 0x0001, 0x1001, 0x9) := by decide
theorem test_cjal_links : (nextOf (exec (.cjal 16) (at32 0x1000 1))).map (·.reg 1) = some 0x1002 := by decide
/-- R270: `c.jr x5` is a return. -/
theorem test_cjr_return :
    look (exec (.cjr 5) (withReg (at32 0x1000 1) 5 0x2001)) = some (0x2000, .M, 0x0001, 0x1001, 0xD) := by decide
/-- R271: `c.jalr x5` is a co-routine swap. -/
theorem test_cjalr_swap :
    look (exec (.cjalr 5) (withReg (at32 0x1000 1) 5 0x2000)) = some (0x2000, .M, 0x0001, 0x1001, 0xC) := by
  decide
theorem test_cjalr_links :
    (nextOf (exec (.cjalr 10) (withReg (at32 0x1000 1) 10 0x2000))).map (·.reg 1) = some 0x1002 := by decide
/-- The example of R272. -/
theorem test_cbeqz_not_taken :
    look (exec (.cbeqz 8 6) (withReg (at32 0x80000050 0x1000000001) 8 1))
      = some (0x80000052, .M, 0x0001, 0x80000051, 0x4) := by decide
/-- The example of R273. -/
theorem test_cbnez_taken :
    look (exec (.cbnez 8 (-4)) (withReg (at32 0x80000054 1) 8 3))
      = some (0x80000050, .M, 0x0001, 0x80000055, 0x5) := by decide
/-- R274, R323: the breakpoint freeze. -/
theorem test_cebreak_freezes :
    look (exec .cebreak (at32 0x80000060 0x801)) = some (0, .M, 0x8000, 0, 0) := by decide
/-- The two examples of R278. -/
theorem test_ebreak_freezes :
    look (exec .ebreak (at32 0x80000060 0x801)) = some (0, .M, 0x8000, 0, 0) := by decide
theorem test_ebreak_records :
    look (exec .ebreak { at32 0x80000060 1 with mtrap := ⟨0x80000100, 0, 0, 0⟩ })
      = some (0x80000100, .M, 0x0001, 0x80000061, 0x1) := by decide
/-- The example of R277. -/
theorem test_ecall_delegated :
    look (exec .ecall { at32 0x10400 6 with mode := .U, medeleg := 0x100, strap := ⟨0x80200000, 0, 0, 0⟩ })
      = some (0x80200000, .S, 0x0001, 0x10401, 0x1) := by decide
theorem test_ecall_saves :
    (nextOf (exec .ecall { at32 0x10400 6 with mode := .U })).map (fun t => (t.mtrap.epc, t.mtrap.cause, t.mstatus.mpp))
      = some (0x10400, 8, .U) := by decide
/-- The example of R275. -/
theorem test_mret_records :
    look (exec .mret { at32 0x80000100 5 with mtrap := ⟨0, 0x10404, 0, 0⟩ })
      = some (0x10404, .U, 0x0001, 0x80000101, 0x3) := by decide
theorem test_mret_in_s_traps :
    (nextOf (exec .mret (inMode (at32 0x80000100 5) .S))).map (fun t => (t.mode, t.mtrap.cause)) = some (.M, 2) := by
  decide
/-- The example of R276. -/
theorem test_sret_to_inhibited :
    look (exec .sret { at64 0x80200100 2 with mode := .S, hstatus := ⟨true, false⟩, strap := ⟨0, 0x20000, 0, 0⟩ })
      = some (0x20000, .VU, 0x0001, 0x80200101, 0x3) := by decide
/-- V60-2 for `sret`: in VU-mode a virtual instruction exception. -/
theorem test_sret_in_vu_traps :
    (nextOf (exec .sret (inMode (at64 0x80200100 2) .VU))).map (fun t => (t.mode, t.mtrap.cause)) = some (.M, 22) := by
  decide

/-- V44-11, R219: a trap and a trap return in Debug Mode are ignored, and freeze nothing. -/
theorem test_debug_trap_ignored :
    look (State.takeTrap { inMode (at32 0x1000 0x801) .Debug with mtrap := ⟨0x80000100, 0, 0, 0⟩ } false ⟨3, 0⟩)
        = some (0x80000100, .M, 0, 0, 0)
      ∧ look (.next ((inMode (at32 0x1000 7) .Debug).returnTo .U 0x2000)) = some (0x2000, .U, 0, 0, 0) := by decide
/-- R351: the breakpoint of a trigger writes the pc or 0 to `xtval`, whatever the event carries. -/
theorem test_trigger_tval :
    ([true, false].map fun b =>
      (nextOf (envStep (.exception 3 0x123) { at32 0x1000 1 with cfg := { resetConfig with tvalPc := b } })).map
        (·.mtrap.tval)) = [some 0x1000, some 0] := by decide

/-! ### The recorder -/

/-- V40-1: the implemented bits of `mctrcontrol`. -/
theorem test_mctrcontrol_all_ones :
    (State.writeCsr (at64 0 0) .mctrcontrol (BitVec.allOnes 64)).readCsr .mctrcontrol = 0x0000FF7E000F1F07 := by
  decide
/-- V40-14: an unreduced WRPTR wraps at the depth. -/
theorem test_push_wraps :
    (Ctr.onRetire cfg64 { Ctr.reset with mctl := 1, wrptr := 0x2F } .dirjump .M 0x1000 0x2000 false).statusWord
      = 0x4000 := by decide
/-- V41-10: the whole record. -/
theorem test_record_top_of_rv32 :
    (Ctr.onRetire resetConfig { Ctr.reset with mctl := 1 } .dirjump .M 0xFFFFFFFC 0 false).entry 0
      = ⟨0xFFFFFFFD, 0, 0xB⟩ := by decide
/-- V48-4, V48-5: an LCOFI without LCOFIFRZ is an ordinary interrupt. -/
theorem test_interrupt_record :
    (Ctr.onTrap cfg64 { Ctr.reset with mctl := 1 } true 13 .M .M 0x10400 0x80200000 false).entry 0
      = ⟨0x10401, 0x80200000, 0x2⟩ := by decide
/-- V48-3: the freeze does not need an enabled mode. -/
theorem test_lcofi_freezes :
    (Ctr.onTrap cfg64 { Ctr.reset with mctl := 0x1000 } true 13 .U .S 0x10400 0x80200000 false).statusWord = 0x8000 := by
  decide
/-- W12, W13 and V46-2 for CCE_BITS = 2. -/
theorem test_cycle_codes :
    (ccValue (ccEncode { cfg64 with cceBits := 4 } 8193), ccEncode { cfg64 with cceBits := 2 } 1000000)
      = (8192, 0x3FFF) := by decide

/-- An entry of CLASSIFY overrides the default table, for the compressed form too (R9, R110). -/
theorem test_classify_overrides :
    look (exec (.cj 8) { at32 0x80000040 1 with cfg := { resetConfig with classify := [((.jal 0 8, true), .indojmp)] } })
      = some (0x80000048, .M, 0x0001, 0x80000041, 0xE) := by decide
/-- R279: reading `mip` makes no event. -/
theorem test_mip_read :
    (nextOf (exec (.csrrs 5 0x344 0) { at64 0x1000 1 with mip := 0x2000 })).map
      (fun t => (t.pc, t.reg 5, t.ctr.statusWord)) = some (0x1004, 0x2000, 0) := by decide
/-- A hart without U-mode returns to M-mode where it has no S-mode (log 42). -/
theorem test_mret_lands_in_m :
    (nextOf (exec .mret { at32 0x100 0 with cfg := { resetConfig with hasS := false, hasU := false, hasH := false } })).map
      (·.mode) = some .M := by decide

/-! ### Witnesses: the hypotheses of every statement can be met -/

theorem witness_DecodeEncodeRoundTrip :
    (Instr.jal 31 0x100000).wf = true ∧ (Instr.bgeu 31 0 0xFFE).wf = true ∧ (Instr.cjr 31).wf = true
      ∧ (Instr.cbeqz 8 0x100).wf = true ∧ (Instr.cbnez 15 0xFE).wf = true := by decide

theorem witness_DecodedIsWellFormed : decode [0xE3, 0x5E, 0xB5, 0xFE, 7] = .ok (.bge 10 11 (-4), [7]) := by decide

theorem witness_ReservedEncodingsRefused :
    (0xFF : Byte).extractLsb' 0 5 = 0b11111#5 ∧ (0xFFFC : BitVec 16).extractLsb' 0 2 = 0b00#2
      ∧ (0x00002063 : BitVec 32).extractLsb' 0 7 = 0b1100011#7 ∧ (0x00002063 : BitVec 32).extractLsb' 13 2 = 0b01#2
      ∧ (0x00003063 : BitVec 32).extractLsb' 0 7 = 0b1100011#7 ∧ (0x00003063 : BitVec 32).extractLsb' 13 2 = 0b01#2 := by
  decide

/-- The reset state with `c.j +8` at its pc. -/
def loaded : State := State.reset.withFetchWord 16 0xA021

theorem witness_StepRunsDecodedInstruction :
    loaded.Fetches (.cj 8) ∧ loaded.env = [] ∧ State.Fetches { loaded with env := [.run, .tick] } (.cj 8) :=
  ⟨⟨[0x21, 0xA0], [], by decide, by decide⟩, rfl, ⟨[0x21, 0xA0], [], by decide +kernel, by decide⟩⟩

theorem witness_PlacedInstructionIsFetched : (Instr.cbnez 15 0xFE).wf = true ∧ (Instr.jalr 0 1 0).wf = true := by decide

/-- An array of zeros has no bit that does not exist. -/
theorem zero_inv (cfg : Config) : Entry.Inv cfg Entry.zero := ⟨BitVec.zero_and, BitVec.zero_and, BitVec.zero_and⟩

theorem get_zero (p : Fin 256) : (Vector.replicate 256 Entry.zero).get p = Entry.zero := by
  simp [Vector.get_eq_getElem]

/-- A recorder that was cleared and then enabled in M-mode. -/
theorem enabled_ctr_inv : Ctr.Inv resetConfig { Ctr.reset with mctl := 1 } where
  mctl := by decide
  vsctl := by decide
  depth := ⟨.d16, by decide, by decide⟩
  wrptr := by decide
  entry p := by
    rw [show (Ctr.arr { Ctr.reset with mctl := 1 }).get p = Entry.zero from get_zero p]
    exact zero_inv _
  absent p _ := get_zero p

/-- The invariant of `loaded`, the recorder enabled. -/
theorem loaded_inv : State.Inv { loaded with ctr := { Ctr.reset with mctl := 1 } } where
  cfg := by decide
  ctr := enabled_ctr_inv
  mode := rfl
  mpp := by decide
  pc := by decide
  align := by decide
  mem := by decide
  mstateen := by decide
  hstateen := by decide

theorem witness_StepKeepsInvariant :
    ∃ s t : State, s.Inv ∧ step s = .next t :=
  have ⟨t, h⟩ := next_of_isSome (o := step { loaded with ctr := { Ctr.reset with mctl := 1 } }) (by decide)
  ⟨_, t, loaded_inv, h⟩

theorem witness_StepKeepsConfigAndMemory : ∃ t, step loaded = .next t := next_of_isSome (by decide)

theorem witness_OnlyCsrInstructionsReconfigure :
    Instr.isCsr .ebreak = false ∧ (∃ t, exec .ebreak (at32 0x1000 0x801) = .next t)
      ∧ (at32 0x1000 0x801).ctr.frozen = false
      ∧ (∃ t, exec (.jal 1 8) { at32 0x1000 1 with ctr := { Ctr.reset with mctl := 1, frozen := true } } = .next t) :=
  ⟨rfl, next_of_isSome (by decide), rfl, next_of_isSome (by decide +kernel)⟩

theorem witness_UserModeLeavesOnlyByTrap :
    (∃ t, exec .ecall (inMode (at32 0x1000 0) .U) = .next t ∧ t.mode ≠ .U)
      ∧ ∃ t, exec .sret (inMode (at32 0x1000 0) .VU) = .next t ∧ t.mode ≠ .VU :=
  ⟨⟨_, rfl, by decide⟩, ⟨_, rfl, by decide⟩⟩

/-- With a cycle counter. -/
def withCc (s : State) : State := { s with cfg := { s.cfg with hasCc := true, cceBits := 3 } }

theorem witness_TickCountsCycles :
    State.env { withCc (at32 0x1000 1) with env := [.tick] } = [.tick] ∧ (withCc (at32 0x1000 1)).cfg.hasCc = true
      ∧ (withCc (at32 0x1000 1)).mode ≠ .Debug ∧ (withCc (at32 0x1000 1)).ctr.enabled .M = true
      ∧ (withCc (at32 0x1000 1)).ctr.frozen = false ∧ (at32 0x1000 1).cfg.hasCc = false := by decide

theorem witness_CounterStopClearsValidity :
    State.env { withCc (at32 0x1000 1) with env := [.counterStop, .run] } = .counterStop :: [.run] := rfl

theorem witness_StoppedCounterIsInvalid :
    (withCc (at32 0x1000 1)).cfg.hasCc = true ∧ (at32 0x1000 1).ctr.enabled .U = false
      ∧ Ctr.frozen { Ctr.reset with frozen := true } = true
      ∧ (at32 0x1000 1).ctr.enabled .M = true ∧ (at32 0x1000 1).ctr.frozen = false := by decide

theorem witness_DebugModeRecordsNothing :
    State.env { at32 0x1000 1 with env := [.debugEntry] } = [.debugEntry]
      ∧ State.env { inMode (at32 0x1000 1) .Debug with env := [.debugExit .VU 0x2000] } = [.debugExit .VU 0x2000]
      ∧ (inMode (at32 0x1000 1) .Debug).mode = .Debug ∧ Mode.VU ≠ .Debug
      ∧ hasMode (at32 0x1000 1).cfg .VU = true
      ∧ (∃ t, exec (.jal 1 8) (inMode (at32 0x1000 1) .Debug) = .next t)
      ∧ (∃ t, exec (.csrrw 0 0x7FF 0) (inMode (at32 0x1000 1) .Debug) = .next t ∧ t.mode ≠ .Debug)
      ∧ State.env { inMode (at32 0x1000 1) .Debug with env := [.interrupt 63] } = [.interrupt 63]
      ∧ State.env { inMode (at32 0x1000 1) .Debug with env := [.exception 3 0] } = [.exception 3 0] :=
  ⟨rfl, rfl, rfl, by decide, rfl, ⟨_, rfl⟩, ⟨_, rfl, by decide⟩, rfl, rfl⟩

theorem witness_ResetEventLeavesInvariant :
    State.env { at32 0x1000 1 with env := [.reset] } = [.reset] ∧ (at32 0x1000 1).cfg.wf = true := by decide

theorem witness_TrapEntrySavesAndEnters :
    State.env { inMode (at32 0x1000 1) .Debug with env := [.pending 0x2000] } = [.pending 0x2000]
      ∧ State.env { inMode (at32 0x1000 1) .VU with env := [.interrupt 13] } = [.interrupt 13]
      ∧ State.env { at32 0x1000 1 with env := [.exception 12 0xFFFFFFFFFFFFFFFF] }
        = [.exception 12 0xFFFFFFFFFFFFFFFF]
      ∧ State.env { at32 0x1000 1 with env := [.exception 3 1] } = [.exception 3 1]
      ∧ State.env { at32 0x1000 1 with env := [.exception 22 1] } = [.exception 22 1]
      ∧ State.env { at32 0x1000 1 with env := [.exception 11 1] } = [.exception 11 1]
      ∧ Config.tvalBits { resetConfig with tvalBits := true } = true
      ∧ Config.tvalBits { resetConfig with tvalBits := false } = false
      ∧ loaded.fetchBytes = some [0x21, 0xA0] ∧ splitEncoding [0x21, 0xA0] = .ok (.half 0xA021, [])
      ∧ handlerAddr .x32 0x80000001 true 63 = 0x800000FC ∧ handlerAddr .x32 0x80000001 false 3 = 0x80000000
      ∧ causeValue .x32 true 13 = 0x8000000D := by decide

theorem witness_EcallTraps :
    (inMode (at32 0 0) .Debug).mode = .Debug ∧ (inMode (at32 0 0) .U).mode = .U ∧ (inMode (at32 0 0) .VU).mode = .VU ∧ (inMode (at32 0 0) .S).mode = .S
      ∧ (inMode (at32 0 0) .VS).mode = .VS ∧ (at32 0 0).mode = .M := by decide

theorem witness_BreakpointsTrap : (at32 0 0).cfg.hasC = true := by decide

theorem witness_MretReturns : (at32 0 0).mode = .M ∧ (inMode (at32 0 0) .Debug).mode = .Debug := ⟨rfl, rfl⟩

theorem witness_SretReturns :
    ((at32 0 0).mode = .M ∧ (at32 0 0).cfg.hasS = true)
      ∧ ((inMode (at32 0 0) .Debug).mode = .Debug ∧ (inMode (at32 0 0) .Debug).cfg.hasS = true)
      ∧ ((inMode (at32 0 0) .S).mode = .S ∧ (inMode (at32 0 0) .S).mstatus.tsr = false)
      ∧ (inMode (at32 0 0) .VS).mode = .VS ∧ (inMode (at32 0 0) .VS).hstatus.vtsr = false := by decide

theorem witness_ForbiddenReturnsTrap :
    ((inMode (at32 0 0) .VU).mode ≠ .M ∧ (inMode (at32 0 0) .VU).mode ≠ .Debug)
      ∧ (inMode (at32 0 0) .U).mode = .U
      ∧ (State.mode { inMode (at32 0 0) .S with mstatus := { State.reset.mstatus with tsr := true } } = .S
        ∧ (State.mstatus { at32 0 0 with mstatus := { State.reset.mstatus with tsr := true } }).tsr = true)
      ∧ (State.mode { inMode (at32 0 0) .Debug with cfg := { resetConfig with hasS := false } } = .Debug
        ∧ Config.hasS { resetConfig with hasS := false } = false)
      ∧ (State.mode { at32 0 0 with cfg := { resetConfig with hasS := false } } = .M
        ∧ Config.hasS { resetConfig with hasS := false } = false)
      ∧ (inMode (at32 0 0) .VU).mode = .VU
      ∧ (State.mode { inMode (at32 0 0) .VS with hstatus := ⟨false, true⟩ } = .VS
        ∧ (State.hstatus { at32 0 0 with hstatus := ⟨false, true⟩ }).vtsr = true) := by decide

/-- Without the C extension. -/
def noC (s : State) : State := { s with cfg := { s.cfg with hasC := false } }

theorem witness_JalTransfers :
    (0xFFFFFFFC : Word) = trunc (at32 4 1).x ((at32 4 1).pc + (0x1FFFF8 : BitVec 21).signExtend 64)
      ∧ (at32 4 1).cfg.hasC = true ∧ (noC (at32 4 1)).cfg.hasC = false ∧ (0xFFFFFFFC : Word).extractLsb' 0 2 = 0 := by
  decide

theorem witness_JalrTransfers :
    (0x7FE : Word) = trunc (at32 4 1).x ((at32 4 1).reg 0 + (0x7FF : BitVec 12).signExtend 64) &&& ~~~(1 : Word)
      ∧ (at32 4 1).cfg.hasC = true := by decide

theorem witness_BranchesTransfer :
    (0x7FFFF004 : Word) = trunc (at32 0x80000004 1).x (0x80000004 + (0x1000 : BitVec 13).signExtend 64)
      ∧ (at32 0x80000004 1).cfg.hasC = true ∧ (0x7FFFF004 : Word).extractLsb' 0 2 = 0
      ∧ (at32 0x80000004 1).reg 1 = (at32 0x80000004 1).reg 2
      ∧ (withReg (at32 0x80000004 1) 1 0x80000000).reg 1 ≠ (withReg (at32 0x80000004 1) 1 0x80000000).reg 2
      ∧ (withReg (at32 0x80000004 1) 1 0x80000000).signedReg 1 < (withReg (at32 0x80000004 1) 1 0x80000000).signedReg 2
      ∧ ((withReg (at32 0x80000004 1) 2 0x80000000).reg 1).toNat
        < ((withReg (at32 0x80000004 1) 2 0x80000000).reg 2).toNat := by decide

theorem witness_CompressedTransfers :
    (at32 0x1000 1).cfg.hasC = true ∧ (at32 0x1000 1).x = .x32
      ∧ (0x800 : Word) = trunc (at32 0x1000 1).x (0x1000 + (0x800 : BitVec 12).signExtend 64)
      ∧ (0x10FE : Word) = trunc (at32 0x1000 1).x (0x1000 + (0xFE : BitVec 9).signExtend 64)
      ∧ (0x1002 : Word) = (withReg (at32 0x1000 1) 5 0x1003).reg 5 &&& ~~~(1 : Word) := by decide

theorem witness_MisalignedTargetTraps :
    (noC (at32 0x1000 1)).cfg.hasC = false
      ∧ (0x1002 : Word).extractLsb' 0 2 ≠ 0 ∧ (0x1002 : Word) = trunc .x32 (0x1000 + (2 : BitVec 21).signExtend 64)
      ∧ (noC (at32 0x1000 1)).x = .x32
      ∧ (0x1002 : Word) =
        trunc .x32 ((noC (withReg (at32 0x1000 1) 1 0x1003)).reg 1 + (0 : BitVec 12).signExtend 64) &&& ~~~(1 : Word)
      ∧ (0x1002 : Word) = trunc .x32 (0x1000 + (2 : BitVec 13).signExtend 64)
      ∧ (noC (at32 0x1000 1)).reg 1 = (noC (at32 0x1000 1)).reg 2
      ∧ (noC (withReg (at32 0x1000 1) 1 0x80000000)).signedReg 1
        < (noC (withReg (at32 0x1000 1) 1 0x80000000)).signedReg 2
      ∧ (noC (withReg (at32 0x1000 1) 1 0x80000000)).reg 1 ≠ (noC (withReg (at32 0x1000 1) 1 0x80000000)).reg 2
      ∧ ((noC (withReg (at32 0x1000 1) 1 0x80000000)).reg 2).toNat
        < ((noC (withReg (at32 0x1000 1) 1 0x80000000)).reg 1).toNat := by decide

theorem witness_CompressedIllegalWithoutC :
    (noC (at32 0x1000 1)).cfg.hasC = false ∧ Instr.len .cebreak = 2
      ∧ Instr.len (.cjal 16) = 2 ∧ Instr.len (.cbnez 8 4) = 2 := by decide

theorem witness_StopsByName :
    ((at64 0 0).cfg.hasC = true ∧ (at64 0 0).x = .x64)
      ∧ (csrOf 0x351 = some (.mireg .src)
        ∧ State.checkAccess { at64 0 0 with miselect := 0x1FF } (.mireg .src) = .pass
        ∧ State.selectOutside { at64 0 0 with miselect := 0x1FF } (.mireg .src) = true
        ∧ State.selectOutside { at64 0 0 with miselect := 0x300 } (.mireg .src) = true)
      ∧ isV (at64 0 0).mode = false ∧ isV (inMode (at64 0 0) .VU).mode = true := by decide

theorem witness_CsrWriteInstructions :
    (csrOf 0x381 = some .mctrcontrol ∧ (at64 0 0).checkAccess .mctrcontrol = .pass
        ∧ (at64 0 0).selectOutside .mctrcontrol = false)
      ∧ csrOf 0x152 = some (.sireg .tgt)
      ∧ State.checkAccess { inMode (at64 0 0) .VS with vsiselect := 0x2FF } (.sireg .tgt) = .pass
      ∧ State.selectOutside { inMode (at64 0 0) .VS with vsiselect := 0x2FF } (.sireg .tgt) = false := by decide

theorem witness_CsrSetInstructions :
    csrOf 0x183 = some .sctrstatus ∧ (inMode (at64 0 0) .VS).checkAccess .sctrstatus = .pass
      ∧ (inMode (at64 0 0) .VS).selectOutside .sctrstatus = false := by decide

theorem witness_CsrClearInstructions :
    csrOf 0x341 = some .mepc ∧ (at64 0 0).checkAccess .mepc = .pass ∧ (at64 0 0).selectOutside .mepc = false := by
  decide

theorem witness_ForbiddenCsrAccessTraps :
    csrOf 0x7FF = none ∧ csrOf 0x381 = some .mctrcontrol
      ∧ (inMode (at64 0 0) .S).checkAccess .mctrcontrol = .illegal ∧ csrOf 0x281 = some .vsctrcontrol
      ∧ (inMode (at64 0 0) .VS).checkAccess .vsctrcontrol = .virtual := by decide

theorem witness_AccessCheckOutcomes :
    (at64 0 0).csrIsCtr .mctrcontrolh = true
      ∧ State.csrIsCtr { at64 0 0 with siselect := 0x200 } (.sireg .src) = true
      ∧ (at64 0 0).checkAccess .mctrcontrolh = .illegal
      ∧ State.checkAccess { inMode (at64 0 0) .VS with hstateen0 := 0 } .sctrcontrol = .virtual
      ∧ (inMode (at64 0 0) .VS).checkAccess .sctrcontrol = .pass
      ∧ State.checkAccess { inMode (at64 0 0) .S with mstateen0 := BitVec.twoPow 64 55 } .siselect = .illegal
      ∧ State.checkAccess { inMode (at64 0 0) .VS with hstateen0 := BitVec.twoPow 64 55 } .siselect = .virtual
      ∧ State.checkAccess { inMode (at64 0 0) .S with mstateen0 := 0 } .stvec = .pass
      ∧ State.checkAccess { at64 0 0 with cfg := { cfg64 with hasSmstateen := false } } .mstateen0 = .illegal := by
  decide

theorem witness_MctrcontrolReadsAndWrites :
    trunc (at64 0 0).x 0xF0081 = 0xF0081 ∧ (0xF0081 : Word).getLsbD 7 = true ∧ trunc (at32 0 0).x 0xFFFF0001 = 0xFFFF0001
      ∧ (0xFFFF0001 : Word).getLsbD 7 = false
      ∧ (State.writeCsr (at64 0 0) .mctrcontrol 7).ctr.depth = (at64 0 0).ctr.depth
      ∧ (at64 0 0).cfg.hasCc = false := by decide

theorem witness_HighHalvesReadAndWrite :
    (at32 0 0).x = .x32 ∧ trunc .x32 0xFFFFFFFF = 0xFFFFFFFF ∧ isV (at32 0 0).mode = false
      ∧ (inMode (at32 0 0) .VS).x = .x32 ∧ isV (inMode (at32 0 0) .VS).mode = true := by decide

theorem witness_SctrcontrolHidesMAndMte :
    isV (inMode (at64 0 0) .S).mode = false ∧ trunc (inMode (at64 0 0) .S).x 0x80 = 0x80
      ∧ (0x80 : Word).getLsbD 7 = true ∧ trunc (inMode (at64 0 0) .S).x 0x106 = 0x106 ∧ (0x106 : Word).getLsbD 7 = false
      ∧ (State.writeCsr (inMode (at64 0 0) .S) .sctrcontrol 0x106).ctr.depth = (at64 0 0).ctr.depth := by decide

theorem witness_VsctrcontrolNeverClears : trunc (at32 0 0).x 0xFFFFFFFF = 0xFFFFFFFF := by decide

theorem witness_GuestSctrcontrolWritesVsctl :
    isV (inMode (at64 0 0) .VS).mode = true ∧ trunc (inMode (at64 0 0) .VS).x 0x86 = 0x86
      ∧ (0x86 : Word).getLsbD 7 = true ∧ (0x06 : Word).getLsbD 7 = false
      ∧ (inMode (at64 0 0) .VS).cfg.hasCc = false := by decide

theorem witness_DepthWritesAreLegalised :
    (resetConfig.depthMin.rank ≤ resetConfig.depthMax.rank)
      ∧ depthSupported resetConfig .d16 = true ∧ depthSupported resetConfig .d256 = true := by decide

theorem witness_LogicalEntryIsPhysical :
    0 < Ctr.reset.depth ∧ 15 < Ctr.reset.depth ∧ 255 < Ctr.depth { Ctr.reset with mctl := 0xF0000 } := by decide

theorem witness_EntryRegistersRead :
    State.miselect { at64 0 0 with miselect := 0x200 } = BitVec.ofNat 64 (0x200 + 0)
      ∧ State.siselect { at64 0 0 with siselect := 0x2FF } = BitVec.ofNat 64 (0x200 + 255)
      ∧ isV (at64 0 0).mode = false
      ∧ State.vsiselect { at64 0 0 with vsiselect := 0x20F } = BitVec.ofNat 64 (0x200 + 15)
      ∧ isV (inMode (at64 0 0) .VS).mode = true := by decide

theorem witness_EntryRegistersWrite :
    State.miselect { at64 0 0 with miselect := 0x210 } = BitVec.ofNat 64 (0x200 + 16)
      ∧ trunc (at64 0 0).x (BitVec.allOnes 64) = BitVec.allOnes 64 ∧ (at64 0 0).ctr.depth ≤ 16
      ∧ State.miselect { at64 0 0 with miselect := 0x20F } = BitVec.ofNat 64 (0x200 + 15) ∧ 15 < (at64 0 0).ctr.depth
      ∧ (0 : Fin 256) ≠ (at64 0 0).ctr.phys 0 ∧ (at64 0 0).x = (at64 0 0).cfg.mxlen
      ∧ (at64 0 0).cfg.vaMode = .exact
      ∧ (isV (at64 0 0).mode = false
        ∧ State.siselect { at64 0 0 with siselect := 0x2FF } = BitVec.ofNat 64 (0x200 + 255))
      ∧ (isV (inMode (at64 0 0) .VS).mode = true
        ∧ State.vsiselect { inMode (at64 0 0) .VS with vsiselect := 0x200 } = BitVec.ofNat 64 (0x200 + 0))
      ∧ (0x7FFFFFFF : BitVec 63).toNat < 2 ^ 31 := by decide

theorem witness_SelectAndStateEnableWrites :
    (at64 0 0).x = (at64 0 0).cfg.mxlen ∧ trunc (at64 0 0).x (BitVec.allOnes 64) = BitVec.allOnes 64
      ∧ isV (at64 0 0).mode = false ∧ isV (inMode (at64 0 0) .VS).mode = true ∧ (at64 0 0).x = .x64
      ∧ (at32 0 0).x = (at32 0 0).cfg.mxlen ∧ trunc (at32 0 0).x 0xFFFFFFFD = 0xFFFFFFFD
      ∧ (0xFFFFFFFD : Word).getLsbD 1 = false ∧ (BitVec.allOnes 64).getLsbD 1 = true
      ∧ (BitVec.allOnes 64).extractLsb' 11 2 = 0b11#2 ∧ (0x800 : Word).extractLsb' 11 2 = 0b01#2
      ∧ (0x3FF : Word).extractLsb' 11 2 = 0b00#2
      ∧ (at64 0 0).mstateen0 &&& ~~~stateenMask = 0 ∧ (at64 0 0).hstateen0 &&& ~~~stateenMask = 0
      ∧ (at32 0 0).x = .x32 ∧ trunc (at32 0 0).x 0xFFFFFFFF = 0xFFFFFFFF := by decide

theorem witness_RegisterZeroIsHardwired :
    trunc (at32 0 0).x 0xFFFFFFFF = 0xFFFFFFFF ∧ (31 : Reg) ≠ 0 := by decide

theorem witness_PushShiftsEntriesDown :
    (15 : Fin 256).val = (Ctr.wrptr { Ctr.reset with wrptr := 0x2F }).toNat % Ctr.reset.depth
      ∧ 14 + 1 < Ctr.reset.depth := by decide

theorem witness_PopRotatesEntriesUp :
    14 + 1 < Ctr.reset.depth ∧ (withCc (at32 0 0)).cfg.hasCc = true ∧ (withCc (at32 0 0)).cfg.rasCc = .accumulate
      ∧ (16 : Fin 256) ≠ Ctr.reset.phys 0 ∧ (at32 0 0).cfg.hasCc = false ∧ Config.rasCc { resetConfig with rasCc := .ccv0 } = .ccv0 := by decide

theorem witness_SwapOverwritesEntryZero :
    0 < 15 ∧ 15 < Ctr.reset.depth ∧ (255 : Fin 256) ≠ Ctr.reset.phys 0 ∧ (withCc (at32 0 0)).cfg.hasCc = true
      ∧ (at32 0 0).cfg.hasCc = false := by decide

theorem witness_PushesFillFromClear :
    (∀ e ∈ [Entry.mk 0x1001 0x2000 0xB, Entry.mk 0x2001 0x3000 0x9], e.valid = true)
      ∧ 1 < [Entry.mk 0x1001 0x2000 0xB, Entry.mk 0x2001 0x3000 0x9].length := by decide

theorem witness_RetireRecordsWhenQualified :
    (at64 0 1).ctr.enabled .U = false ∧ Ctr.frozen { Ctr.reset with frozen := true } = true
      ∧ (ctlBit ((at64 0 1).ctr.ctl .M) .rasemu = false ∧ inhibited ((at64 0 1).ctr.ctl .M) .ntbr = true)
      ∧ (cfg64.vaMode = .exact ∧ (at64 0 1).ctr.enabled .M = true ∧ (at64 0 1).ctr.frozen = false
        ∧ inhibited ((at64 0 1).ctr.ctl .M) .tkbr = false) := by decide

theorem witness_TrapsRecordByModeTable :
    Mode.U ≠ .Debug ∧ Mode.S ≠ .Debug ∧ (at64 0 6).ctr.frozen = false
      ∧ ctlBit ((at64 0 6).ctr.cfgOf cfg64 .U .S) .rasemu = false
      ∧ freezes ((at64 0 6).ctr.cfgOf cfg64 .U .S) true 13 = false
      ∧ freezes ((at64 0 6).ctr.cfgOf cfg64 .U .S) false 3 = false := by decide

theorem witness_FreezingTraps :
    Mode.M ≠ .Debug ∧ ((at64 0 0x801).ctr.cfgOf cfg64 .M .M).getLsbD 11 = true
      ∧ ((at64 0 0x1001).ctr.cfgOf cfg64 .M .M).getLsbD 12 = true
      ∧ ((at64 0 0x1001).ctr.cfgOf cfg64 .M .M).getLsbD 11 = false := by decide

theorem witness_FrozenRecorderIsStill :
    Ctr.frozen { Ctr.reset with mctl := 7, frozen := true } = true ∧ (withCc (at32 0 0)).cfg.hasCc = true := by decide

theorem witness_RasEmulationByKind :
    (at64 0 0x401).ctr.enabled .M = true ∧ (at64 0 0x401).ctr.frozen = false
      ∧ ((at64 0 0x401).ctr.ctl .M).getLsbD 10 = true
      ∧ ((at64 0 0x401).ctr.cfgOf cfg64 .U .M).getLsbD 10 = true ∧ (at64 0 0x401).ctr.enabled .U = false
      ∧ freezes ((at64 0 0x401).ctr.cfgOf cfg64 .U .M) false 3 = false := by decide

theorem witness_EnableAndFilterBits : isV .VS = isV .VU ∧ isV .VU ≠ isV .S := by decide

theorem witness_CycleCodeRoundsDown :
    ccDecode (ccFull { cfg64 with cceBits := 0 }).1 (ccFull { cfg64 with cceBits := 0 }).2 ≤ 4095
      ∧ ccDecode (ccFull { cfg64 with cceBits := 4 }).1 (ccFull { cfg64 with cceBits := 4 }).2 ≤ 134201344
      ∧ 4095 ≤ 134201344 := by decide

/-- A maximum depth of 128. -/
def max128 (s : State) : State := { s with cfg := { s.cfg with depthMax := .d128 } }

theorem witness_DepthChangeKeepsStatus :
    trunc (max128 (at64 0 0)).x 0x70001 = 0x70001 ∧ (0x70001 : Word).getLsbD 7 = false
      ∧ (State.writeCsr (max128 (at64 0 0)) .mctrcontrol 0x70001).ctr.depth ≠ (max128 (at64 0 0)).ctr.depth
      ∧ maxDepth (max128 (at64 0 0)).cfg ≤ (128 : Fin 256).val := by decide

end Sys2Proof.Tests
end

section
/-! Retired jumps and branches: what the shared operations `State.jump` and `State.branch` leave, in the terms of
`State.Transferred` and `State.Branches`. -/

namespace Sys2Proof.Machine

/-- A retired transfer that wrote a link register is the statements' transfer. -/
theorem State.transferred_setReg_retire (s : State) (k : Kind) (a : Word) (rd : Reg) (l : Word) :
    s.Transferred ((s.setReg rd l).retire k a) k a rd where
  pc := rfl
  ctr := rfl
  regs := fun _ hr => s.regs_setReg_other hr l
  priv := by constructor <;> rfl
  base := by constructor <;> intros <;> rfl

/-- A retired transfer that wrote no register is the statements' transfer. -/
theorem State.transferred_retire (s : State) (k : Kind) (a : Word) : s.Transferred (s.retire k a) k a 0 where
  pc := rfl
  ctr := rfl
  regs := fun _ _ => rfl
  priv := by constructor <;> rfl
  base := by constructor <;> intros <;> rfl

theorem State.retire_reg (s : State) (k : Kind) (a : Word) (r : Reg) : (s.retire k a).reg r = s.reg r := rfl

/-- A jump to an aligned target is a transfer, and the link register reads back as the link. -/
theorem State.jump_transferred {s : State} {a : Word} (ha : s.Aligned a) (k : Kind) (rd : Reg) (l : Word) :
    ∃ t, s.jump k a rd l = .next t ∧ s.Transferred t k a rd ∧ t.reg rd = if rd = 0 then 0 else trunc s.x l := by
  have hjump : s.jump k a rd l = .next ((s.setReg rd l).retire k a) := by
    simp [State.jump, State.misaligned_of_aligned ha]
  have hlink : ((s.setReg rd l).retire k a).reg rd = if rd = 0 then 0 else trunc s.x l := by
    rw [State.retire_reg]
    split
    case isTrue h0 => rw [h0, State.reg_zero]
    case isFalse h0 => exact s.reg_setReg_same h0 l
  exact ⟨_, hjump, s.transferred_setReg_retire k a rd l, hlink⟩

/-- The shared branch operation does what the statements ask of a branch whose condition it was given. -/
theorem State.branches_branch (s : State) (i : Instr) {b : Bool} {taken : Prop} (hb : b = true ↔ taken) (a : Word)
    (len : Nat) : s.Branches i (s.branch i b a len) taken a len := by
  constructor
  · intro htaken haligned
    have hbranch : s.branch i b a len = .next (s.retire (s.classified i true .tkbr) a) := by
      simp [State.branch, hb.mpr htaken, State.misaligned_of_aligned haligned, kindOfBranch, kindOf_eq_classified]
    exact ⟨_, hbranch, s.transferred_retire _ _, rfl⟩
  · intro hnot
    have hfalse : b = false := Bool.eq_false_iff.mpr (mt hb.mp hnot)
    have hbranch : s.branch i b a len = .next (s.retire (s.classified i false .ntbr) (s.pcNext len)) := by
      simp [State.branch, hfalse, kindOfBranch, kindOf_eq_classified]
    exact ⟨_, hbranch, s.transferred_retire _ _, rfl⟩

end Sys2Proof.Machine
end

section
/-! The compressed transfers on a hart with the C extension (spec/45_transfer_type_filtering.md R268 to R273): each is
the shared jump or branch of its expansion, with the link or the next instruction at pc + 2. -/

namespace Sys2Proof.Machine

theorem State.compressed_of_hasC {s : State} (hC : s.cfg.hasC = true) (i : Instr) (o : Out) : s.compressed i o = o :=
  if_pos hC

/-! ### Targets and kinds of the expansions -/

/-- The target of an expansion `jalr rd, 0(rs1)` is the register without its bit 0. -/
theorem State.jalrTarget_zero (s : State) (rs1 : Reg) : s.jalrTarget rs1 0 = s.reg rs1 &&& ~~~(1 : Word) := by
  simp [State.jalrTarget, evenAddr]

theorem isLink_iff (r : Reg) : isLink r = true ↔ r = 1 ∨ r = 5 := by simp [isLink]

/-- The default kind of `jalr x0, 0(rs1)` (R233). -/
theorem jalrKind_zero (rs1 : Reg) : jalrKind 0 rs1 = if rs1 = 1 ∨ rs1 = 5 then .ret else .indjump := by
  simp [jalrKind, isLink_iff]

/-- The default kind of `jalr x1, 0(rs1)`: only `x5` swaps, since `x1` is the destination itself (R233). -/
theorem jalrKind_one (rs1 : Reg) : jalrKind 1 rs1 = if rs1 = 5 then .corswap else .indcall := by
  by_cases h5 : rs1 = 5
  · subst h5
    rfl
  · rw [if_neg h5]
    by_cases h1 : rs1 = 1
    · subst h1
      rfl
    · have hlink : isLink rs1 = false := Bool.eq_false_iff.mpr (mt (isLink_iff rs1).mp (not_or.mpr ⟨h1, h5⟩))
      simp [jalrKind, isLink_iff, hlink]

/-! ### The instructions as jumps and branches -/

section
variable {s : State} (hC : s.cfg.hasC = true)
include hC

theorem exec_cj (off : BitVec 12) :
    exec (.cj off) s
      = s.jump (s.classified (.jal 0 (off.signExtend 21)) true .dirjump) (s.pcPlus off) 0 (s.pcNext 2) := by
  rw [← kindOf_eq_classified]
  exact State.compressed_of_hasC hC _ _

theorem exec_cjal (hx : s.x = .x32) (off : BitVec 12) :
    exec (.cjal off) s
      = s.jump (s.classified (.jal 1 (off.signExtend 21)) true .dircall) (s.pcPlus off) 1 (s.pcNext 2) := by
  rw [← kindOf_eq_classified]
  change execCjal off s = _
  unfold execCjal
  rw [hx]
  exact State.compressed_of_hasC hC _ _

theorem exec_cjr (rs1 : Reg) :
    exec (.cjr rs1) s
      = s.jump (s.classified (.jalr 0 rs1 0) true (if rs1 = 1 ∨ rs1 = 5 then .ret else .indjump))
          (s.reg rs1 &&& ~~~(1 : Word)) 0 (s.pcNext 2) := by
  rw [← kindOf_eq_classified, ← jalrKind_zero, ← State.jalrTarget_zero]
  exact State.compressed_of_hasC hC _ _

theorem exec_cjalr (rs1 : Reg) :
    exec (.cjalr rs1) s
      = s.jump (s.classified (.jalr 1 rs1 0) true (if rs1 = 5 then .corswap else .indcall))
          (s.reg rs1 &&& ~~~(1 : Word)) 1 (s.pcNext 2) := by
  rw [← kindOf_eq_classified, ← jalrKind_one, ← State.jalrTarget_zero]
  exact State.compressed_of_hasC hC _ _

theorem exec_cbeqz (rs1 : Reg) (off : BitVec 9) :
    exec (.cbeqz rs1 off) s = s.branch (.beq rs1 0 (off.signExtend 13)) (s.reg rs1 == 0) (s.pcPlus off) 2 :=
  State.compressed_of_hasC hC _ _

theorem exec_cbnez (rs1 : Reg) (off : BitVec 9) :
    exec (.cbnez rs1 off) s = s.branch (.bne rs1 0 (off.signExtend 13)) (s.reg rs1 != 0) (s.pcPlus off) 2 :=
  State.compressed_of_hasC hC _ _

/-- With C every target is aligned; a jump that writes no link. -/
theorem State.jump_transferred_x0 (k : Kind) (a : Word) :
    ∃ t, s.jump k a 0 (s.pcNext 2) = .next t ∧ s.Transferred t k a 0 := by
  obtain ⟨t, ht, htrans, -⟩ := State.jump_transferred (.inl hC) k 0 (s.pcNext 2)
  exact ⟨t, ht, htrans⟩

/-- With C every target is aligned; a jump that links in `x1` leaves pc + 2 there. -/
theorem State.jump_transferred_x1 (k : Kind) (a : Word) :
    ∃ t, s.jump k a 1 (s.pcNext 2) = .next t ∧ s.Transferred t k a 1 ∧ t.reg 1 = trunc s.x (s.pc + 2) := by
  obtain ⟨t, ht, htrans, hlink⟩ := State.jump_transferred (.inl hC) k 1 (s.pcNext 2)
  exact ⟨t, ht, htrans, hlink.trans (trunc_trunc s.x (s.pc + 2))⟩

end

/-- Settles O27: each instruction is the jump or branch of its expansion, and with C no target is misaligned. -/
theorem compressedTransfers : Obligations.CompressedTransfers := by
  intro s hC
  refine ⟨?direct, ?indirect, ?branches⟩
  case direct =>
    rintro off _ rfl
    refine ⟨?_, fun hx => ?_⟩
    · rw [exec_cj hC]
      exact State.jump_transferred_x0 hC _ _
    · rw [exec_cjal hC hx]
      exact State.jump_transferred_x1 hC _ _
  case indirect =>
    rintro rs1 _ rfl
    rw [exec_cjr hC, exec_cjalr hC]
    exact ⟨State.jump_transferred_x0 hC _ _, State.jump_transferred_x1 hC _ _⟩
  case branches =>
    rintro rs1 off _ rfl
    rw [exec_cbeqz hC, exec_cbnez hC]
    exact ⟨s.branches_branch _ beq_iff_eq _ 2, s.branches_branch _ bne_iff_ne _ 2⟩

end Sys2Proof.Machine
end

section
/-! `vsctrcontrol` by its own number (spec/40_csr_access.md R121, R122, R128, R129): which bits a write can change, and
that it stores them and does nothing more. -/

namespace Sys2Proof.Machine

/-! ### The implemented bits -/

theorem twoPow_getLsbD_iff {n : Nat} (hn : n < 64) (k : Nat) : (BitVec.twoPow 64 n).getLsbD k = true ↔ n = k := by
  simp only [BitVec.getLsbD_twoPow, Bool.and_eq_true, decide_eq_true_eq, and_iff_right hn]

theorem fieldPos_lt (f : CtlField) : fieldPos f < 64 := by cases f <;> decide

/-- Only MTE stands at bit 8. -/
theorem fieldPos_eq_eight_iff (f : CtlField) : fieldPos f = 8 ↔ f = .mte := by cases f <;> decide

/-- The statements' table of the optional fields agrees with the model's positions. -/
theorem mem_ctlFieldBits_iff (p : CtlField × Nat) : p ∈ ctlFieldBits ↔ fieldPos p.1 = p.2 := by
  obtain ⟨f, k⟩ := p
  cases f <;> simp [ctlFieldBits, fieldPos, eq_comm]

theorem fieldMask_getLsbD_iff (fs : List CtlField) (k : Nat) :
    (fieldMask fs).getLsbD k = true ↔ ∃ f ∈ fs, fieldPos f = k := by
  induction fs with
  | nil => simp [fieldMask]
  | cons f fs ih =>
    rw [fieldMask, BitVec.getLsbD_or, Bool.or_eq_true, twoPow_getLsbD_iff (fieldPos_lt f), ih,
      List.exists_mem_cons_iff]

/-- Without bit 8 the mask of a set has the bits of its fields but MTE. -/
theorem fieldMask_and_not_mte_getLsbD_iff (fs : List CtlField) (k : Nat) :
    (fieldMask fs &&& ~~~(0x100 : Word)).getLsbD k = true
      ↔ ∃ p ∈ ctlFieldBits, p.1 ∈ fs ∧ p.1 ≠ .mte ∧ p.2 = k := by
  have hbit8 : (0x100 : Word) = BitVec.twoPow 64 8 := by decide
  have hmte : (0x100 : Word).getLsbD k = true ↔ 8 = k := by rw [hbit8, twoPow_getLsbD_iff (by decide)]
  simp only [BitVec.getLsbD_and, BitVec.getLsbD_not, Bool.and_eq_true, fieldMask_getLsbD_iff, decide_eq_true_eq,
    Bool.not_eq_true', Bool.eq_false_iff, Ne, hmte]
  constructor
  · rintro ⟨⟨f, hf, rfl⟩, -, h8⟩
    exact ⟨(f, fieldPos f), (mem_ctlFieldBits_iff _).mpr rfl, hf,
      fun hne => h8 ((fieldPos_eq_eight_iff f).mpr hne).symm, rfl⟩
  · rintro ⟨⟨f, _⟩, hp, hf, hne, rfl⟩
    obtain rfl : fieldPos f = _ := (mem_ctlFieldBits_iff _).mp hp
    exact ⟨⟨f, hf, rfl⟩, fieldPos_lt f, fun h8 => hne ((fieldPos_eq_eight_iff f).mp h8.symm)⟩

/-- `WV` (R121): nothing without H; with H the bits VS and VU and the optional fields of the implementation but MTE. -/
theorem maskV_getLsbD_iff (cfg : Config) (k : Nat) :
    (maskV cfg).getLsbD k = true ↔ cfg.hasH = true
      ∧ (k = 1 ∨ k = 2 ∨ ∃ p ∈ ctlFieldBits, p.1 ∈ cfg.implVS ∧ p.1 ≠ .mte ∧ p.2 = k) := by
  have hsix : (6 : Word) = BitVec.twoPow 64 1 ||| BitVec.twoPow 64 2 := by decide
  unfold maskV
  split
  case isTrue hH =>
    simp only [hsix, BitVec.getLsbD_or, Bool.or_eq_true, twoPow_getLsbD_iff (by decide : 1 < 64),
      twoPow_getLsbD_iff (by decide : 2 < 64), fieldMask_and_not_mte_getLsbD_iff, hH, true_and, or_assoc,
      eq_comm (b := k)]
  case isFalse hH => simp [hH]

/-! ### What a write stores -/

/-- An access of the low half covers the XLEN low bits (R120). -/
theorem coverLow_getLsbD (x : Xlen) (k : Nat) : (coverLow x).getLsbD k = decide (k < xbits x) := by
  have hx : xbits x ≤ 64 := by cases x <;> decide
  rw [coverLow, trunc_getLsbD, BitVec.getLsbD_allOnes, ← Bool.decide_and]
  exact decide_eq_decide.mpr ⟨And.left, fun h => ⟨h, by omega⟩⟩

/-- A write changes the implemented bits that it covers and keeps the others (R122). -/
theorem Ctr.vsctlAfter_getLsbD (cfg : Config) (c : Ctr) (v cover : Word) {k : Nat} (hk : k < 64) :
    (c.vsctlAfter cfg v cover).getLsbD k =
      if (maskV cfg).getLsbD k = true ∧ cover.getLsbD k = true then v.getLsbD k else c.vsctl.getLsbD k := by
  simp only [Ctr.vsctlAfter, BitVec.getLsbD_or, BitVec.getLsbD_and, BitVec.getLsbD_not, hk, decide_true,
    Bool.true_and]
  cases (maskV cfg).getLsbD k <;> cases cover.getLsbD k <;> simp

/-- Where CLR is not effective a write stores and does no more (R122, R129). -/
theorem Ctr.writeVsctl_not_effective (cfg : Config) (ev : Nat) (c : Ctr) (v cover : Word) :
    c.writeVsctl cfg ev v cover false = { c with vsctl := c.vsctlAfter cfg v cover } := by
  rcases c.writeVsctl_cases cfg ev v cover false with ⟨hclear, -⟩ | ⟨-, hstore⟩
  case inl => simp at hclear
  case inr => exact hstore

/-- `vsctrcontrol` means itself in every mode. -/
theorem aliasOf_vsctrcontrol (m : Mode) : aliasOf m .vsctrcontrol = .vsctrcontrol := by
  unfold aliasOf
  split <;> rfl

theorem State.readCsr_vsctrcontrol (s : State) : s.readCsr .vsctrcontrol = trunc s.x s.ctr.vsctlView := by
  simp only [State.readCsr, aliasOf_vsctrcontrol]

/-- A write of `vsctrcontrol` by its own number stores the covered bits, and neither clears nor changes the depth. -/
theorem State.writeCsr_vsctrcontrol (s : State) (v : Word) :
    s.writeCsr .vsctrcontrol v =
      { s with ctr := { s.ctr with vsctl := s.ctr.vsctlAfter s.cfg v (coverLow s.x) } } := by
  simp only [State.writeCsr, aliasOf_vsctrcontrol, Ctr.writeVsctl_not_effective]

/-- Settles O39: the write by the register's own number never has an effective CLR, so what it stores is all it does. -/
theorem vsctrcontrolNeverClears : Obligations.VsctrcontrolNeverClears := by
  intro s v _
  refine ⟨maskV_getLsbD_iff s.cfg, s.readCsr_vsctrcontrol, fun k hk => ?stored, ?frame⟩
  case stored =>
    simp only [s.writeCsr_vsctrcontrol, Ctr.vsctlAfter_getLsbD _ _ _ _ hk, coverLow_getLsbD, decide_eq_true_eq]
  case frame => rw [s.writeCsr_vsctrcontrol]

end Sys2Proof.Machine
end

section
/-! The entry registers (spec/41_entry_access.md R150 to R158): which register an `*ireg*` access reaches, what a read
of it gives, and what a write of it stores. -/

namespace Sys2Proof.Machine

/-! ### Logical and physical entries -/

/-- Settles O43: `wp + depth` is `WRPTR` up to a multiple of the depth. -/
theorem logicalEntryIsPhysical : Obligations.LogicalEntryIsPhysical := by
  intro c i hi
  have hsum : ((c.wrptr.toNat % c.depth + c.depth - 1 - i : Nat) : Int)
      = (c.wrptr.toNat : Int) % c.depth - (1 + i) + c.depth := by omega
  calc ((c.phys i).val : Int)
      = ((c.wrptr.toNat : Int) % c.depth - (1 + i) + c.depth) % c.depth := by
        rw [c.phys_val, Int.natCast_mod, hsum]
    _ = ((c.wrptr.toNat : Int) - (1 + i)) % c.depth := by rw [Int.add_emod_right, Int.emod_sub_emod]
    _ = ((c.wrptr.toNat : Int) - 1 - i) % c.depth := by rw [Int.sub_sub]

/-! ### The paths to an entry -/

/-- `path` is one of the three ways to an entry register, and its select names logical entry `i` (R150). -/
structure State.Selects (s : State) (path : IReg → Csr) (i : Nat) : Prop where
  name : path = .mireg ∨ path = .sireg ∨ path = .vsireg
  select : ∀ r, s.selectOf (path r) = some (BitVec.ofNat 64 (0x200 + i))

theorem select_toNat {i : Nat} (hi : i < 256) : (BitVec.ofNat 64 (0x200 + i)).toNat = 0x200 + i := by
  rw [BitVec.toNat_ofNat]
  omega

/-- A value of 32 bits is its own low XLEN bits, whatever XLEN is. -/
theorem trunc_of_toNat_lt (x : Xlen) {v : Word} (hv : v.toNat < 2 ^ 32) : trunc x v = v := by
  cases x
  case x32 =>
    apply BitVec.eq_of_toNat_eq
    simp only [trunc, BitVec.toNat_setWidth]
    omega
  case x64 => rfl

/-- The select value of an entry fits every XLEN, so the accessing mode does not matter (log 14). -/
theorem trunc_select (x : Xlen) {i : Nat} (hi : i < 256) :
    trunc x (BitVec.ofNat 64 (0x200 + i)) = BitVec.ofNat 64 (0x200 + i) :=
  trunc_of_toNat_lt x (by rw [select_toNat hi]; omega)

theorem logicalOf_eq {v : Word} {i : Nat} (hv : v.toNat = 0x200 + i) : logicalOf v = i := by
  unfold logicalOf
  omega

section
variable {s : State} {i : Nat}

theorem State.selects_mireg (hsel : s.miselect = BitVec.ofNat 64 (0x200 + i)) (hi : i < 256) :
    s.Selects .mireg i where
  name := .inl rfl
  select _ := by rw [State.selectOf, hsel, trunc_select _ hi]

theorem State.selects_vsireg (hsel : s.vsiselect = BitVec.ofNat 64 (0x200 + i)) (hi : i < 256) :
    s.Selects .vsireg i where
  name := .inr (.inr rfl)
  select _ := by rw [State.selectOf, hsel, trunc_select _ hi]

theorem State.selects_sireg (hV : isV s.mode = false) (hsel : s.siselect = BitVec.ofNat 64 (0x200 + i))
    (hi : i < 256) : s.Selects .sireg i where
  name := .inr (.inl rfl)
  select _ := by simp [State.selectOf, hV, hsel, trunc_select _ hi]

theorem State.selects_sireg_guest (hV : isV s.mode = true) (hsel : s.vsiselect = BitVec.ofNat 64 (0x200 + i))
    (hi : i < 256) : s.Selects .sireg i where
  name := .inr (.inl rfl)
  select _ := by simp [State.selectOf, hV, hsel, trunc_select _ hi]

variable {path : IReg → Csr}

/-- An `*ireg*` name means itself in every mode: it is the select register that the guest's name exchanges (R150). -/
theorem State.Selects.aliasOf_path (h : s.Selects path i) (m : Mode) (r : IReg) : aliasOf m (path r) = path r := by
  unfold aliasOf
  rcases h.name with rfl | rfl | rfl <;> exact ite_self _

theorem State.Selects.logicalOf_selectOf (h : s.Selects path i) (hi : i < 256) (r : IReg) :
    logicalOf ((s.selectOf (path r)).getD 0) = i := by
  rw [h.select r, Option.getD_some, logicalOf_eq (select_toNat hi)]

/-- All three paths read one array (R150). -/
theorem State.Selects.readCsr_eq (h : s.Selects path i) (hi : i < 256) (r : IReg) :
    s.readCsr (path r) = if i < s.ctr.depth then trunc s.x ((s.ctr.entry i).reg r) else 0 := by
  have hread : s.readCsr (path r) = s.ctr.readEntry s.x r (logicalOf ((s.selectOf (path r)).getD 0)) := by
    unfold State.readCsr
    rw [h.aliasOf_path]
    rcases h.name with rfl | rfl | rfl <;> rfl
  rw [hread, h.logicalOf_selectOf hi]
  rfl

/-- All three paths write one array (R150). -/
theorem State.Selects.writeCsr_eq (h : s.Selects path i) (hi : i < 256) (r : IReg) (v : Word) :
    s.writeCsr (path r) v = { s with ctr := s.ctr.writeEntry s.cfg s.draws s.x r i v } := by
  have hwrite : s.writeCsr (path r) v =
      { s with ctr := s.ctr.writeEntry s.cfg s.draws s.x r (logicalOf ((s.selectOf (path r)).getD 0)) v } := by
    unfold State.writeCsr
    rw [h.aliasOf_path]
    rcases h.name with rfl | rfl | rfl <;> rfl
  rw [hwrite, h.logicalOf_selectOf hi]

end

/-- Settles O44: each path reaches the entry its select names, and the guest's two names share one select. -/
theorem entryRegistersRead : Obligations.EntryRegistersRead := by
  refine ⟨fun e => ⟨rfl, rfl, rfl, rfl⟩, fun s i r hi => ⟨fun hsel => ?_, fun hsel hV => ?_,
    fun hsel => ⟨?_, fun hV => ?_⟩⟩⟩
  · exact (State.selects_mireg hsel hi).readCsr_eq hi r
  · exact (State.selects_sireg hV hsel hi).readCsr_eq hi r
  · exact (State.selects_vsireg hsel hi).readCsr_eq hi r
  · rw [(State.selects_sireg_guest hV hsel hi).readCsr_eq hi, (State.selects_vsireg hsel hi).readCsr_eq hi]

/-! ### Legalised addresses -/

/-- Legalisation keeps an address, or makes of an invalid one another invalid one of the width (R52). -/
theorem legalizeVa_cases (cfg : Config) (w : Nat) (a : BitVec 63) :
    legalizeVa cfg w a = a
      ∨ cfg.vaMode = .converting ∧ vaOk a = false ∧ vaOk (legalizeVa cfg w a) = false
        ∧ (legalizeVa cfg w a).toNat < 2 ^ w := by
  unfold legalizeVa
  split
  case h_1 => exact .inl rfl
  case h_2 hmode =>
    split
    case isTrue => exact .inl rfl
    case isFalse hbad =>
      split
      case isFalse => exact .inl rfl
      case isTrue hconv =>
        obtain ⟨hwidth, hinvalid⟩ : _ ∧ _ := by simpa using hconv
        exact .inr ⟨hmode, by simpa using hbad, hinvalid, hwidth⟩

theorem legalizeVa_exact {cfg : Config} (h : cfg.vaMode = .exact) (w : Nat) (a : BitVec 63) :
    legalizeVa cfg w a = a := by
  unfold legalizeVa
  rw [h]

theorem legalizeVa_toNat_lt (cfg : Config) {w : Nat} {a : BitVec 63} (ha : a.toNat < 2 ^ w) :
    (legalizeVa cfg w a).toNat < 2 ^ w := by
  rcases legalizeVa_cases cfg w a with hsame | ⟨-, -, -, hwidth⟩
  case inl => rwa [hsame]
  case inr => exact hwidth

/-- An address that is no valid one is not 0 (log 24), and the host calls it invalid. -/
theorem vaOk_eq_false_iff (a : BitVec 63) : vaOk a = false ↔ a ≠ 0 ∧ Config.vaValid a = false := by
  simp [vaOk]

/-- A word is its PC field with its bit 0. -/
theorem extract_append_bit0 (v : Word) : v.extractLsb' 1 63 ++ BitVec.ofBool (v.getLsbD 0) = v := by
  ext k hk
  rw [BitVec.getElem_append]
  split
  case isTrue h0 =>
    obtain rfl : k = 0 := by omega
    simp
  case isFalse h0 => simp [Nat.add_sub_cancel' (by omega : 1 ≤ k), BitVec.getLsbD_eq_getElem hk]

/-- A PC field of XLEN - 1 bits with a bit 0 is a word of XLEN bits. -/
theorem trunc_append_bit0 (x : Xlen) {a : BitVec 63} (ha : a.toNat < 2 ^ (xbits x - 1)) (b : Bool) :
    trunc x (a ++ BitVec.ofBool b) = a ++ BitVec.ofBool b := by
  cases x
  case x32 =>
    apply BitVec.eq_of_toNat_eq
    have hb : (BitVec.ofBool b).toNat < 2 := (BitVec.ofBool b).isLt
    have hword : (a ++ BitVec.ofBool b : Word).toNat = 2 * a.toNat + (BitVec.ofBool b).toNat := by
      rw [BitVec.toNat_append, Nat.shiftLeft_eq, Nat.mul_comm, ← Nat.two_pow_add_eq_or_of_lt (by simpa using hb)]
    simp only [trunc, BitVec.toNat_setWidth, hword]
    simp only [xbits] at ha
    omega
  case x64 => rfl

/-- The PC field of a value of XLEN bits has XLEN - 1 bits. -/
theorem extract_pc_lt {x : Xlen} {v : Word} (hv : trunc x v = v) : (v.extractLsb' 1 63).toNat < 2 ^ (xbits x - 1) := by
  have hpc : (v.extractLsb' 1 63).toNat = v.toNat / 2 := by
    rw [BitVec.extractLsb'_toNat, Nat.shiftRight_eq_div_pow]
    omega
  cases x
  case x32 =>
    have hlow : v.toNat % 2 ^ 32 = v.toNat := by
      have := congrArg BitVec.toNat hv
      simp only [trunc, BitVec.toNat_setWidth] at this
      omega
    simp only [xbits, hpc]
    omega
  case x64 => exact (v.extractLsb' 1 63).isLt

/-! ### What a write stores -/

/-- The low XLEN bits of an address register after a write (R154, R155). -/
theorem trunc_writeAddr (cfg : Config) (ev : Nat) {x : Xlen} {v : Word} (hv : trunc x v = v) (b : Bool) :
    trunc x (writeAddr cfg ev x v b)
      = legalizeVa cfg (xbits x - 1) (v.extractLsb' 1 63) ++ BitVec.ofBool b := by
  have hstored := trunc_append_bit0 x (legalizeVa_toNat_lt cfg (extract_pc_lt hv)) b
  simp only [writeAddr, hv]
  split
  case isTrue h32 =>
    obtain ⟨rfl, -⟩ := h32
    rw [trunc_joinHalves, hstored]
  case isFalse => exact hstored

/-- XLEN is not below MXLEN where it is MXLEN. -/
theorem not_below_mxlen {cfg : Config} {x : Xlen} (hx : x = cfg.mxlen) : ¬(x = .x32 ∧ cfg.mxlen = .x64) := by
  rintro ⟨h32, h64⟩
  rw [h32, h64] at hx
  exact absurd hx (by decide)

/-- Where XLEN is MXLEN nothing above XLEN is left free. -/
theorem writeAddr_mxlen {cfg : Config} (ev : Nat) {x : Xlen} {v : Word} (hx : x = cfg.mxlen) (hv : trunc x v = v)
    (b : Bool) :
    writeAddr cfg ev x v b = legalizeVa cfg (xbits x - 1) (v.extractLsb' 1 63) ++ BitVec.ofBool b := by
  simp only [writeAddr, hv, if_neg (not_below_mxlen hx)]

theorem ofNat_two_pow_sub_one_getLsbD (w n k : Nat) :
    (BitVec.ofNat w (2 ^ n - 1)).getLsbD k = (decide (k < w) && decide (k < n)) := by
  rw [BitVec.getLsbD_ofNat, Nat.testBit_two_pow_sub_one]

/-- CC and CCV of `ctrdata` (R55, R56): CCV at 15, CCM at 27:16 and the implemented bits of CCE from 28 up. -/
theorem ccMask_getLsbD (cfg : Config) (k : Nat) :
    (0#32 ++ cceMask cfg ++ 0xFFF#12 ++ 1#1 ++ 0#15 : Word).getLsbD k
      = (decide (k = 15) || decide (16 ≤ k ∧ k < 28) || decide (28 ≤ k ∧ k < 28 + cfg.cceBits.val)) := by
  have hcce : cfg.cceBits.val < 5 := cfg.cceBits.isLt
  have hccm : 0xFFF#12 = BitVec.ofNat 12 (2 ^ 12 - 1) := rfl
  have hccv : 1#1 = BitVec.ofNat 1 (2 ^ 1 - 1) := rfl
  rw [Bool.eq_iff_iff]
  simp only [BitVec.getLsbD_append, hccm, hccv, cceMask, ofNat_two_pow_sub_one_getLsbD, BitVec.getLsbD_zero]
  split_ifs <;> simp <;> omega

/-- The implemented bits of `ctrdata` (R54 to R57): TYPE at 3:0, and CC and CCV. -/
theorem dataMask_getLsbD (cfg : Config) (k : Nat) :
    (dataMask cfg).getLsbD k = (decide (k < 4) && cfg.hasType
      || (decide (k = 15) || decide (16 ≤ k ∧ k < 28) || decide (28 ≤ k ∧ k < 28 + cfg.cceBits.val))
        && cfg.hasCc) := by
  have htype : (15#64).getLsbD k = decide (k < 4) := by
    rw [show 15#64 = BitVec.ofNat 64 (2 ^ 4 - 1) from rfl, ofNat_two_pow_sub_one_getLsbD, ← Bool.decide_and]
    exact decide_eq_decide.mpr ⟨And.right, fun h => ⟨by omega, h⟩⟩
  rw [dataMask, BitVec.getLsbD_or, Bool.or_comm, ← ccMask_getLsbD]
  cases cfg.hasCc <;> cases cfg.hasType <;> simp [htype]

/-! ### Writing -/

section
variable {c : Ctr} {i : Nat} (cfg : Config) (ev : Nat) (x : Xlen) (v : Word)

/-- At or above the depth a write is ignored (R153). -/
theorem Ctr.writeEntry_of_depth_le (h : c.depth ≤ i) (r : IReg) : c.writeEntry cfg ev x r i v = c :=
  if_neg (Nat.not_lt.mpr h)

theorem Ctr.writeEntry_of_lt (h : i < c.depth) (r : IReg) :
    c.writeEntry cfg ev x r i v =
      { c with arr := c.arr.set (c.phys i) (Entry.write cfg ev x r v (c.entry i)) } :=
  if_pos h

/-- The fourth to sixth register of an entry are read-only zeros (R157). -/
theorem Ctr.writeEntry_zero : c.writeEntry cfg ev x .zero i v = c := by
  unfold Ctr.writeEntry
  split
  case isTrue h =>
    have hsame : c.arr.set (c.phys i) (c.arr.get (c.phys i)) = c.arr := by
      simp [Vector.get_eq_getElem]
    simp only [Entry.write, hsame]
  case isFalse => rfl

/-- The written entry; the pointer and the depth are kept, so `i` still names the same slot. -/
theorem Ctr.writeEntry_entry (h : i < c.depth) (r : IReg) :
    (c.writeEntry cfg ev x r i v).entry i = Entry.write cfg ev x r v (c.entry i) := by
  rw [Ctr.writeEntry_of_lt cfg ev x v h]
  exact Vector.getElem_set_self _

/-- The other slots keep their entries. -/
theorem Ctr.writeEntry_get_other {p : Fin 256} (hp : p ≠ c.phys i) (r : IReg) :
    (c.writeEntry cfg ev x r i v).arr.get p = c.arr.get p := by
  unfold Ctr.writeEntry
  split
  case isTrue h => exact Vector.getElem_set_ne (c.phys i).isLt p.isLt fun he => hp (Fin.ext he.symm)
  case isFalse => rfl

/-- A write changes the array at most. -/
theorem Ctr.writeEntry_frame (r : IReg) :
    c.writeEntry cfg ev x r i v = { c with arr := (c.writeEntry cfg ev x r i v).arr } := by
  unfold Ctr.writeEntry
  split <;> rfl

end

/-- Settles O45: each path is a write of the selected entry, which stores the written register and no other. -/
theorem entryRegistersWrite : Obligations.EntryRegistersWrite := by
  constructor
  case left =>
    intro cfg w a
    refine ⟨?_, legalizeVa_toNat_lt cfg⟩
    rcases legalizeVa_cases cfg w a with hsame | ⟨hmode, hbad, hnew, -⟩
    case inl => exact .inl hsame
    case inr =>
      obtain ⟨hne, hinvalid⟩ := (vaOk_eq_false_iff a).mp hbad
      exact .inr ⟨hmode, hne, hinvalid, (vaOk_eq_false_iff _).mp hnew⟩
  case right =>
    intro s i v path hpath hi hv after addr
    have hselects : s.Selects path i := by
      rcases hpath with ⟨rfl, hsel⟩ | ⟨rfl, hV, hsel⟩ | ⟨rfl, hV, hsel⟩ | ⟨rfl, hsel⟩
      · exact State.selects_mireg hsel hi
      · exact State.selects_sireg hV hsel hi
      · exact State.selects_sireg_guest hV hsel hi
      · exact State.selects_vsireg hsel hi
    have hafter (r : IReg) : after r = { s with ctr := s.ctr.writeEntry s.cfg s.draws s.x r i v } :=
      hselects.writeCsr_eq hi r v
    refine ⟨fun r hdepth => ?above, ?zero, fun hdepth => ?below⟩
    case above => rw [hafter, Ctr.writeEntry_of_depth_le _ _ _ _ hdepth]
    case zero => rw [hafter, Ctr.writeEntry_zero]
    case below =>
      have hentry (r : IReg) : (after r).ctr.entry i = Entry.write s.cfg s.draws s.x r v (s.ctr.entry i) := by
        rw [hafter, Ctr.writeEntry_entry _ _ _ _ hdepth]
      have hsrc : ((after .src).ctr.entry i).src = writeAddr s.cfg s.draws s.x v (v.getLsbD 0) := by
        rw [hentry, Entry.write]
      have htgt : ((after .tgt).ctr.entry i).tgt
          = writeAddr s.cfg s.draws s.x v (v.getLsbD 0 && s.cfg.hasMisp) := by rw [hentry, Entry.write]
      have hdata : ((after .data).ctr.entry i).data = v &&& dataMask s.cfg := by rw [hentry, Entry.write]
      refine ⟨fun r p hp => ?others, fun r => ?frame, ?dataOnly, fun k hk => ?dataBits, ?srcOnly, ?tgtOnly, ?srcLow,
        ?tgtLow, fun hx => ⟨?srcWhole, ?tgtWhole⟩, fun hexact => ?identity⟩
      case others => rw [hafter, Ctr.writeEntry_get_other _ _ _ _ hp]
      case frame => rw [hafter, ← Ctr.writeEntry_frame]
      case dataBits => rw [hdata, BitVec.getLsbD_and, dataMask_getLsbD]
      case srcLow => rw [hsrc, trunc_writeAddr _ _ hv]
      case tgtLow => rw [htgt, trunc_writeAddr _ _ hv]
      case srcWhole => rw [hsrc, writeAddr_mxlen _ hx hv]
      case tgtWhole => rw [htgt, writeAddr_mxlen _ hx hv]
      case identity => rw [hsrc, trunc_writeAddr _ _ hv, legalizeVa_exact hexact, extract_append_bit0]
      all_goals rw [hentry, Entry.write]

end Sys2Proof.Machine
end

section
/-! Where the model stops by name (spec/41_entry_access.md R161; spec/45_transfer_type_filtering.md R269; logs 13, 14,
22). -/

namespace Sys2Proof.Machine

/-- With XLEN = 64 the pattern of `c.jal` is the host's `c.addiw` (R269, log 22). -/
theorem exec_cjal_x64 {s : State} (hC : s.cfg.hasC = true) (hx : s.x = .x64) (off : BitVec 12) :
    exec (.cjal off) s = .refused .cAddiw := by
  change execCjal off s = _
  unfold execCjal
  rw [hx]
  exact State.compressed_of_hasC hC _ _

/-- The six CSR instructions share one operation (R120). -/
theorem exec_eq_csrOp (s : State) {i : Instr} {n : CsrNum}
    (hi : ∃ rd rs1, i = .csrrw rd n rs1 ∨ i = .csrrs rd n rs1 ∨ i = .csrrc rd n rs1 ∨ i = .csrrwi rd n rs1
      ∨ i = .csrrsi rd n rs1 ∨ i = .csrrci rd n rs1) : ∃ rd write, exec i s = s.csrOp i n rd write := by
  obtain ⟨rd, rs1, rfl | rfl | rfl | rfl | rfl | rfl⟩ := hi
  case inl => exact ⟨rd, some fun _ => s.reg rs1, rfl⟩
  case inr.inr.inr.inl => exact ⟨rd, some fun _ => csrImm rs1, rfl⟩
  all_goals exact ⟨rd, _, rfl⟩

/-- An access that the check allows stops where the select is not CTR's, whatever it would have written (R161). -/
theorem State.csrOp_selectOutside {s : State} {n : CsrNum} {c : Csr} (hc : csrOf n = some c)
    (hpass : s.checkAccess c = .pass) (hout : s.selectOutside c = true) (i : Instr) (rd : Reg)
    (write : Option (Word → Word)) : s.csrOp i n rd write = .refused .indirectSelect := by
  simp only [State.csrOp, hc, hpass, hout, if_true]

/-- The range of R161, for the select value an `*ireg*` access uses. -/
theorem State.selectOutside_iff {s : State} {c : Csr} {v : Word} (hsel : s.selectOf c = some v) :
    s.selectOutside c = true ↔ ¬(0x200 ≤ v.toNat ∧ v.toNat < 0x300) := by
  simp only [State.selectOutside, hsel, selectInRange, Bool.not_eq_true', ← Bool.decide_and, decide_eq_false_iff_not]

/-- Settles O30: all six CSR instructions share one operation, and each path's range is its select register's. -/
theorem stopsByName : Obligations.StopsByName := by
  refine ⟨fun s off hC hx => exec_cjal_x64 hC hx off, fun s i n c hc hpass hout hi => ?csr, fun s r => ?range⟩
  case csr =>
    obtain ⟨rd, write, hexec⟩ := exec_eq_csrOp s hi
    exact hexec.trans (State.csrOp_selectOutside hc hpass hout i rd write)
  case range =>
    refine ⟨State.selectOutside_iff rfl, State.selectOutside_iff rfl, fun hV => ?_, fun hV => ?_⟩
    · exact State.selectOutside_iff (by simp [State.selectOf, hV])
    · have hsame : s.selectOf (.sireg r) = s.selectOf (.vsireg r) := by simp [State.selectOf, hV]
      simp only [State.selectOutside, hsame]

end Sys2Proof.Machine
end

section
/-! The host's registers and the select registers (spec/41_entry_access.md R150, spec/42_state_enable.md R170,
spec/60_exceptions.md section 4; logs 10 to 18, 35, 36, 46): what a read gives and what a write stores. -/

namespace Sys2Proof.Machine

/-! ### Widths -/

theorem xbits_le (x : Xlen) : xbits x ≤ 64 := by cases x <;> decide

theorem le_xbits (x : Xlen) : 32 ≤ xbits x := by cases x <;> decide

theorem trunc_and (x : Xlen) (a b : Word) : trunc x (a &&& b) = trunc x a &&& b := by
  apply BitVec.eq_of_getLsbD_eq
  intro k _
  rw [trunc_getLsbD, BitVec.getLsbD_and, BitVec.getLsbD_and, trunc_getLsbD, Bool.and_assoc]

/-! ### Words of single bits -/

/-- The bit at the place, where the condition holds. -/
theorem bitIf_getLsbD (b : Bool) {n : Nat} (hn : n < 64) (k : Nat) :
    (bitIf b n).getLsbD k = (b && decide (n = k)) := by
  cases b
  case false => simp [bitIf]
  case true => simp [bitIf, hn]

/-- The word with the bits of a list of places. -/
def placesWord : List (Nat × Bool) → Word
  | [] => 0
  | (n, b) :: places => bitIf b n ||| placesWord places

theorem lookup_eq_none_of_forall_ne {k : Nat} {places : List (Nat × Bool)} (h : ∀ p ∈ places, k ≠ p.1) :
    places.lookup k = none :=
  List.lookup_eq_none_iff.mpr fun p hp => bne_iff_ne.mpr (h p hp)

/-- Where no place is listed twice, the word shows every bit of the list. -/
theorem shows_placesWord {places : List (Nat × Bool)} (hlt : ∀ p ∈ places, p.1 < 64)
    (hnodup : (places.map Prod.fst).Nodup) : Shows (placesWord places) places := by
  induction places with
  | nil => exact fun _ _ => BitVec.getLsbD_zero
  | cons p places ih =>
    obtain ⟨n, b⟩ := p
    rw [List.forall_mem_cons] at hlt
    rw [List.map_cons, List.nodup_cons] at hnodup
    obtain ⟨hn, hlt⟩ := hlt
    obtain ⟨hfresh, hnodup⟩ := hnodup
    intro k hk
    rw [placesWord, BitVec.getLsbD_or, bitIf_getLsbD b hn, ih hlt hnodup k hk, List.lookup_cons]
    by_cases hkn : k = n
    case pos =>
      subst hkn
      have hnone : places.lookup k = none :=
        lookup_eq_none_of_forall_ne fun q hq he => hfresh (List.mem_map.mpr ⟨q, hq, he.symm⟩)
      simp [hnone]
    case neg => simp [beq_eq_false_iff_ne.mpr hkn, Ne.symm hkn]

/-- Places below 32 are within the low XLEN bits. -/
theorem Shows.trunc {w : Word} {places : List (Nat × Bool)} (h : Shows w places) (x : Xlen)
    (hlow : ∀ p ∈ places, p.1 < 32) : Shows (trunc x w) places := by
  intro k hk
  rw [trunc_getLsbD, h k hk]
  by_cases hkx : k < xbits x
  case pos => simp [hkx]
  case neg =>
    have h32 := le_xbits x
    have hnone : places.lookup k = none :=
      lookup_eq_none_of_forall_ne fun p hp he => by have := hlow p hp; omega
    simp [hkx, hnone]

/-! ### The status registers as words (log 11) -/

/-- MPP's two bits: the upper one says M, the lower one says that the level is not U. -/
theorem privBits_shiftLeft (p : Priv) :
    (privBits p).setWidth 64 <<< 11 = bitIf (p != .U) 11 ||| bitIf (p == .M) 12 := by
  cases p <;> decide

theorem MStatus.word_shows (m : MStatus) :
    Shows m.word [(1, m.sie), (3, m.mie), (5, m.spie), (7, m.mpie), (8, m.spp), (11, m.mpp != .U), (12, m.mpp == .M),
      (22, m.tsr), (39, m.mpv)] := by
  have h := shows_placesWord (places := [(1, m.sie), (3, m.mie), (5, m.spie), (7, m.mpie), (8, m.spp),
    (11, m.mpp != .U), (12, m.mpp == .M), (22, m.tsr), (39, m.mpv)]) (by simp) (by simp)
  simpa [MStatus.word, placesWord, privBits_shiftLeft, BitVec.or_assoc] using h

theorem MStatus.sWord_shows (m : MStatus) : Shows m.sWord [(1, m.sie), (5, m.spie), (8, m.spp)] := by
  have h := shows_placesWord (places := [(1, m.sie), (5, m.spie), (8, m.spp)]) (by simp) (by simp)
  simpa [MStatus.sWord, placesWord, BitVec.or_assoc] using h

theorem VsStatus.word_shows (v : VsStatus) : Shows v.word [(1, v.sie), (5, v.spie), (8, v.spp)] := by
  have h := shows_placesWord (places := [(1, v.sie), (5, v.spie), (8, v.spp)]) (by simp) (by simp)
  simpa [VsStatus.word, placesWord, BitVec.or_assoc] using h

theorem HStatus.word_shows (h : HStatus) : Shows h.word [(7, h.spv), (22, h.vtsr)] := by
  have hw := shows_placesWord (places := [(7, h.spv), (22, h.vtsr)]) (by simp) (by simp)
  simpa [HStatus.word, placesWord] using hw

/-! ### Reading -/

theorem State.returnAddress_eq (s : State) (epc : Word) : s.returnAddress epc = epc &&& epcMask s.cfg := rfl

/-- Every read is the low XLEN bits of its register, by its V=0 name or by the one the guest's name stands for. -/
theorem State.hostReads (s : State) : s.HostReads where
  trap := by cases hV : isV s.mode <;> simp [State.readCsr, aliasOf, hV, State.sTrap, State.returnAddress_eq]
  held := by cases hV : isV s.mode <;> simp [State.readCsr, aliasOf, hV]
  mstatus :=
    ⟨s.mstatus.word, by simp [State.readCsr, aliasOf], by simp [State.readCsr, aliasOf], s.mstatus.word_shows⟩
  sstatus hV := by
    have hread : s.readCsr .sstatus = trunc s.x s.mstatus.sWord := by simp [State.readCsr, aliasOf, hV]
    exact hread ▸ s.mstatus.sWord_shows.trunc s.x (by simp)
  vsstatus := by
    have hread : s.readCsr .vsstatus = trunc s.x s.vsstatus.word := by simp [State.readCsr, aliasOf]
    exact hread ▸ s.vsstatus.word_shows.trunc s.x (by simp)
  guest hV := by simp [State.readCsr, aliasOf, hV]
  hstatus := by
    have hread : s.readCsr .hstatus = trunc s.x s.hstatus.word := by simp [State.readCsr, aliasOf]
    exact hread ▸ s.hstatus.word_shows.trunc s.x (by simp)

/-! ### Which bits a write changes -/

theorem mergeBits_getLsbD (old v cover : Word) {k : Nat} (hk : k < 64) :
    (mergeBits old v cover).getLsbD k = if cover.getLsbD k = true then v.getLsbD k else old.getLsbD k := by
  simp only [mergeBits, BitVec.getLsbD_or, BitVec.getLsbD_and, BitVec.getLsbD_not, hk, decide_true, Bool.true_and]
  cases cover.getLsbD k <;> simp

/-- A write that covers no bit changes nothing. -/
theorem mergeBits_zero (old v : Word) : mergeBits old v 0 = old := by
  simp only [mergeBits, BitVec.ofNat_eq_ofNat, BitVec.not_zero, BitVec.and_allOnes, BitVec.and_zero, BitVec.or_zero]

/-- A write covers the low XLEN bits, of which those of the mask are held. -/
theorem mergeBits_coverLow_getLsbD (x : Xlen) (old v mask : Word) {k : Nat} (hk : k < xbits x) :
    (mergeBits old v (coverLow x &&& mask)).getLsbD k
      = if mask.getLsbD k = true then v.getLsbD k else old.getLsbD k := by
  have hk64 : k < 64 := Nat.lt_of_lt_of_le hk (xbits_le x)
  simp only [mergeBits_getLsbD _ _ _ hk64, BitVec.getLsbD_and, coverLow_getLsbD, hk, decide_true, Bool.true_and]

/-- `medeleg` keeps the bit of the environment call from M-mode (log 17). -/
theorem mergeBits_medeleg_getLsbD (x : Xlen) (old v : Word) {k : Nat} (hk : k < xbits x) :
    (mergeBits old v (coverLow x &&& medelegMask)).getLsbD k
      = if k = 11 then old.getLsbD k else v.getLsbD k := by
  have hmask : ∀ n : Fin 64, medelegMask.getLsbD n.val = decide (n.val ≠ 11) := by decide
  have hbit := hmask ⟨k, Nat.lt_of_lt_of_le hk (xbits_le x)⟩
  simp only [mergeBits_coverLow_getLsbD _ _ _ _ hk, hbit, decide_eq_true_eq, ite_not]

/-- `hedeleg` keeps the bits of what only HS-mode or M-mode handles (log 17). -/
theorem mergeBits_hedeleg_getLsbD (x : Xlen) (old v : Word) {k : Nat} (hk : k < xbits x) :
    (mergeBits old v (coverLow x &&& hedelegMask)).getLsbD k
      = if k ∈ [9, 10, 11, 20, 21, 22, 23] then old.getLsbD k else v.getLsbD k := by
  have hmask : ∀ n : Fin 64, hedelegMask.getLsbD n.val = decide (n.val ∉ [9, 10, 11, 20, 21, 22, 23]) := by decide
  have hbit := hmask ⟨k, Nat.lt_of_lt_of_le hk (xbits_le x)⟩
  simp only [mergeBits_coverLow_getLsbD _ _ _ _ hk, hbit, decide_eq_true_eq, ite_not]

/-- `mideleg` and `hideleg` hold every bit as written (log 17). -/
theorem mergeBits_ideleg_getLsbD (x : Xlen) (old v : Word) {k : Nat} (hk : k < xbits x) :
    (mergeBits old v (coverLow x)).getLsbD k = v.getLsbD k := by
  simp only [mergeBits_getLsbD _ _ _ (Nat.lt_of_lt_of_le hk (xbits_le x)), coverLow_getLsbD, hk, decide_true, if_true]

theorem mipMask_getLsbD_iff (cfg : Config) (k : Nat) :
    (mipMask cfg).getLsbD k = true ↔ k = 13 ∨ k ∈ [1, 5, 9] ∧ cfg.hasS = true := by
  simp only [mipMask, BitVec.getLsbD_or, bitIf_getLsbD _ (by decide : 1 < 64), bitIf_getLsbD _ (by decide : 5 < 64),
    bitIf_getLsbD _ (by decide : 9 < 64), bitIf_getLsbD _ (by decide : 13 < 64)]
  cases cfg.hasS <;> simp [eq_comm (b := k), or_comm, or_assoc]

/-- The bits of `mip` that a write changes are in the low half, so XLEN does not matter (log 46). -/
theorem mergeBits_mip_getLsbD (cfg : Config) (x : Xlen) (old v : Word) {k : Nat} (hk : k < 64) :
    (mergeBits old v (coverLow x &&& mipMask cfg)).getLsbD k
      = if k = 13 ∨ k ∈ [1, 5, 9] ∧ cfg.hasS = true then v.getLsbD k else old.getLsbD k := by
  have hcovered : k < xbits x ∧ (k = 13 ∨ k ∈ [1, 5, 9] ∧ cfg.hasS = true)
      ↔ k = 13 ∨ k ∈ [1, 5, 9] ∧ cfg.hasS = true := by
    refine and_iff_right_of_imp fun hheld => Nat.lt_of_lt_of_le ?_ (le_xbits x)
    rcases hheld with rfl | ⟨hs, -⟩
    · decide
    · simp only [List.mem_cons, List.not_mem_nil, or_false] at hs
      omega
  simp only [mergeBits_getLsbD _ _ _ hk, BitVec.getLsbD_and, coverLow_getLsbD, Bool.and_eq_true, decide_eq_true_eq,
    mipMask_getLsbD_iff, hcovered]

theorem stateenMask_getLsbD_iff (k : Nat) : stateenMask.getLsbD k = true ↔ k = 55 ∨ k = 60 := by
  rw [stateenMask, BitVec.getLsbD_or, Bool.or_eq_true, twoPow_getLsbD_iff (by decide), twoPow_getLsbD_iff (by decide),
    eq_comm (b := k), eq_comm (b := k)]

theorem coverHigh_getLsbD {k : Nat} (hk : k < 64) : coverHigh.getLsbD k = decide (32 ≤ k) := by
  rw [coverHigh, BitVec.getLsbD_shiftLeft, BitVec.getLsbD_allOnes, Bool.eq_iff_iff]
  simp only [Bool.and_eq_true, Bool.not_eq_true', decide_eq_true_eq, decide_eq_false_iff_not]
  omega

/-- The state-enable bits are in the high half (log 35). -/
theorem coverLow_and_stateenMask : coverLow .x32 &&& stateenMask = 0 := by decide

/-- A state enable that holds its two bits only holds those of the value written. -/
theorem mergeBits_stateen {old : Word} (hold : old &&& ~~~stateenMask = 0) (v : Word) :
    mergeBits old v (coverLow .x64 &&& stateenMask) = v &&& stateenMask := by
  have hcover : coverLow .x64 &&& stateenMask = stateenMask := BitVec.allOnes_and
  rw [hcover, mergeBits, hold]
  exact BitVec.zero_or

/-- The high half of a state enable holds bits 23 and 28 of the value written to it (log 35). -/
theorem mergeBits_stateenh_getLsbD (old v : Word) {k : Nat} (hk : k < 64) :
    (mergeBits old (v <<< 32) (coverHigh &&& stateenMask)).getLsbD k =
      if k = 55 then v.getLsbD 23 else if k = 60 then v.getLsbD 28 else old.getLsbD k := by
  simp only [mergeBits_getLsbD _ _ _ hk, BitVec.getLsbD_and, Bool.and_eq_true, stateenMask_getLsbD_iff]
  by_cases h55 : k = 55
  case pos =>
    subst h55
    have hcovered : coverHigh.getLsbD 55 = true := coverHigh_getLsbD hk
    simp [hcovered]
  case neg =>
    by_cases h60 : k = 60
    case pos =>
      subst h60
      have hcovered : coverHigh.getLsbD 60 = true := coverHigh_getLsbD hk
      simp [hcovered]
    case neg => simp [h55, h60]

/-! ### Values a register adjusts -/

theorem tvecLegal_of_legal {v : Word} (h : v.getLsbD 1 = false) (old : Word) : tvecLegal v old = v := by
  rw [tvecLegal, h]
  exact if_neg Bool.false_ne_true

/-- An illegal mode of `xtvec` becomes direct or vectored (log 36). -/
theorem tvecLegal_of_illegal {v : Word} (h : v.getLsbD 1 = true) (old : Word) :
    tvecLegal v old = v &&& ~~~(3 : Word) ∨ tvecLegal v old = (v &&& ~~~(3 : Word)) ||| 1 := by
  have hmode : tvecLegal v old = (v &&& ~~~(3 : Word)) ||| BitVec.ofNat 64 (Config.warlPick v old % 2) := by
    simp only [tvecLegal, h, if_true]
  rcases Nat.mod_two_eq_zero_or_one (Config.warlPick v old) with h0 | h1
  case inl => exact .inl (by rw [hmode, h0]; exact BitVec.or_zero)
  case inr => exact .inr (by rw [hmode, h1]; rfl)

theorem mem_legalPrivs_iff (cfg : Config) (p : Priv) :
    p ∈ legalPrivs cfg ↔
      p = .M ∨ p = .S ∧ (cfg.hasS || cfg.hasH) = true ∨ p = .U ∧ (cfg.hasU || cfg.hasH) = true := by
  unfold legalPrivs
  cases cfg.hasS || cfg.hasH <;> cases cfg.hasU || cfg.hasH <;> simp

/-- MPP always holds a level the hart has (log 11). -/
theorem legalizeMpp_mem (cfg : Config) (v old : Word) : legalizeMpp cfg v old ∈ legalPrivs cfg := by
  have hpos : 0 < (legalPrivs cfg).length := List.length_pos_of_mem ((mem_legalPrivs_iff cfg .M).mpr (.inl rfl))
  have hother : (legalPrivs cfg).getD (Config.warlPick v old % (legalPrivs cfg).length) .M ∈ legalPrivs cfg := by
    rw [List.getD_eq_getElem _ _ (Nat.mod_lt _ hpos)]
    exact List.getElem_mem _
  unfold legalizeMpp
  split
  case h_1 p _ =>
    split
    case isTrue h => exact List.contains_iff_mem.mp h
    case isFalse => exact hother
  case h_2 => exact hother

/-- A level the hart has is stored as written (log 11). -/
theorem legalizeMpp_of_legal {cfg : Config} {v : Word} {p : Priv} (hbits : privOfBits (v.extractLsb' 11 2) = some p)
    (hp : p ∈ legalPrivs cfg) (old : Word) : legalizeMpp cfg v old = p := by
  unfold legalizeMpp
  rw [hbits]
  exact if_pos (List.contains_iff_mem.mpr hp)

/-! ### Writing -/

/-- Where XLEN is MXLEN a write fills the register. -/
theorem State.widen_mxlen {s : State} (hx : s.x = s.cfg.mxlen) (k : Nat) (v : Word) : s.widen k v = v :=
  if_neg (not_below_mxlen hx)

theorem State.hostWrites {s : State} (hx : s.x = s.cfg.mxlen) (v : Word) : s.HostWrites v where
  mtvec := by
    have hw : s.writeCsr .mtvec v = { s with mtrap := { s.mtrap with tvec := tvecLegal v s.mtrap.tvec } } := by
      simp [State.writeCsr, aliasOf, s.widen_mxlen hx]
    rw [hw]
    exact ⟨rfl, fun h => tvecLegal_of_legal h _, fun h => tvecLegal_of_illegal h _⟩
  mepc := by simp [State.writeCsr, aliasOf, State.widen_mxlen hx, State.returnAddress_eq]
  mcause := by simp [State.writeCsr, aliasOf, State.widen_mxlen hx]
  mtval := by simp [State.writeCsr, aliasOf, State.widen_mxlen hx]
  stvec hV := by
    have hw : s.writeCsr .stvec v = { s with strap := { s.strap with tvec := tvecLegal v s.strap.tvec } } := by
      simp [State.writeCsr, aliasOf, State.widen_mxlen hx, hV]
    rw [hw]
    exact ⟨rfl, fun h => tvecLegal_of_legal h _⟩
  sepc hV := by simp [State.writeCsr, aliasOf, State.widen_mxlen hx, State.returnAddress_eq, hV]
  scause hV := by simp [State.writeCsr, aliasOf, State.widen_mxlen hx, hV]
  stval hV := by simp [State.writeCsr, aliasOf, State.widen_mxlen hx, hV]
  vstvec := by
    have hw : s.writeCsr .vstvec v = { s with vstrap := { s.vstrap with tvec := tvecLegal v s.vstrap.tvec } } := by
      simp [State.writeCsr, aliasOf, State.widen_mxlen hx]
    rw [hw]
    exact ⟨rfl, fun h => tvecLegal_of_legal h _⟩
  vsepc := by simp [State.writeCsr, aliasOf, State.widen_mxlen hx, State.returnAddress_eq]
  vscause := by simp [State.writeCsr, aliasOf, State.widen_mxlen hx]
  vstval := by simp [State.writeCsr, aliasOf, State.widen_mxlen hx]
  guest hV := by simp [State.writeCsr, aliasOf, hV]
  mstatus := by simp [State.writeCsr, aliasOf, MStatus.write]
  mpp := by
    have hw : (s.writeCsr .mstatus v).mstatus.mpp = legalizeMpp s.cfg v s.mstatus.word := by
      simp [State.writeCsr, aliasOf, MStatus.write]
    rw [hw]
    refine ⟨(mem_legalPrivs_iff _ _).mp (legalizeMpp_mem _ _ _), fun hb => ?_, fun hb hS => ?_, fun hb hU => ?_⟩
    · exact legalizeMpp_of_legal (by rw [hb]; rfl) ((mem_legalPrivs_iff _ _).mpr (.inl rfl)) _
    · exact legalizeMpp_of_legal (by rw [hb]; rfl) ((mem_legalPrivs_iff _ _).mpr (.inr (.inl ⟨rfl, hS⟩))) _
    · exact legalizeMpp_of_legal (by rw [hb]; rfl) ((mem_legalPrivs_iff _ _).mpr (.inr (.inr ⟨rfl, hU⟩))) _
  mstatush := by simp [State.writeCsr, aliasOf]
  sstatus hV := by simp [State.writeCsr, aliasOf, hV, MStatus.sWrite]
  vsstatus := by simp [State.writeCsr, aliasOf]
  hstatus := by simp [State.writeCsr, aliasOf]
  medeleg := by
    have hw : s.writeCsr .medeleg v = { s with medeleg := mergeBits s.medeleg v (coverLow s.x &&& medelegMask) } := by
      simp [State.writeCsr, aliasOf]
    rw [hw]
    exact ⟨rfl, fun k hk => mergeBits_medeleg_getLsbD _ _ _ hk⟩
  mideleg := by
    have hw : s.writeCsr .mideleg v = { s with mideleg := mergeBits s.mideleg v (coverLow s.x) } := by
      simp [State.writeCsr, aliasOf]
    rw [hw]
    exact ⟨rfl, fun k hk => mergeBits_ideleg_getLsbD _ _ _ hk⟩
  hedeleg := by
    have hw : s.writeCsr .hedeleg v = { s with hedeleg := mergeBits s.hedeleg v (coverLow s.x &&& hedelegMask) } := by
      simp [State.writeCsr, aliasOf]
    rw [hw]
    exact ⟨rfl, fun k hk => mergeBits_hedeleg_getLsbD _ _ _ hk⟩
  hideleg := by
    have hw : s.writeCsr .hideleg v = { s with hideleg := mergeBits s.hideleg v (coverLow s.x) } := by
      simp [State.writeCsr, aliasOf]
    rw [hw]
    exact ⟨rfl, fun k hk => mergeBits_ideleg_getLsbD _ _ _ hk⟩
  mip := by
    have hw : s.writeCsr .mip v = { s with mip := mergeBits s.mip v (coverLow s.x &&& mipMask s.cfg) } := by
      simp [State.writeCsr, aliasOf]
    rw [hw]
    exact ⟨rfl, fun k hk => mergeBits_mip_getLsbD _ _ _ _ hk⟩

/-! ### What is written reads back (log 12) -/

/-- `State.trunc_widen` in the form that unfolding a written state leaves. -/
theorem State.trunc_xlenOf_widen (s : State) (k : Nat) (v : Word) :
    trunc (xlenOf s.cfg s.mode) (s.widen k v) = trunc (xlenOf s.cfg s.mode) v := s.trunc_widen k v

theorem State.widen_getLsbD (s : State) (n : Nat) (v : Word) {k : Nat} (hk : k < 32) :
    (s.widen n v).getLsbD k = v.getLsbD k := by
  have hlow := congrArg (fun w : Word => w.getLsbD k) (s.trunc_widen n v)
  simpa only [trunc_getLsbD, Nat.lt_of_lt_of_le hk (le_xbits s.x), decide_true, Bool.true_and] using hlow

theorem State.readCsr_writeCsr_whole (s : State) (v : Word) :
    ∀ c ∈ [Csr.miselect, .siselect, .vsiselect, .mcause, .mtval, .scause, .stval, .vscause, .vstval],
      (s.writeCsr c v).readCsr c = trunc s.x v := by
  cases hV : isV s.mode <;> simp [State.writeCsr, State.readCsr, aliasOf, hV, State.x, s.trunc_xlenOf_widen]

theorem State.readCsr_writeCsr_tvec (s : State) {v : Word} (hv : v.getLsbD 1 = false) :
    ∀ c ∈ [Csr.mtvec, .stvec, .vstvec], (s.writeCsr c v).readCsr c = trunc s.x v := by
  have hlegal (old : Word) : tvecLegal (s.widen 9 v) old = s.widen 9 v :=
    tvecLegal_of_legal ((s.widen_getLsbD 9 v (by decide)).trans hv) old
  cases hV : isV s.mode <;> simp [State.writeCsr, State.readCsr, aliasOf, hV, State.x, s.trunc_xlenOf_widen, hlegal]

theorem State.readCsr_writeCsr_epc (s : State) (v : Word) :
    ∀ c ∈ [Csr.mepc, .sepc, .vsepc], (s.writeCsr c v).readCsr c = s.returnAddress (trunc s.x v) := by
  cases hV : isV s.mode <;>
    simp [State.writeCsr, State.readCsr, aliasOf, hV, State.x, s.trunc_xlenOf_widen, trunc_and, s.returnAddress_eq,
      BitVec.and_assoc]

/-! ### The select and state-enable registers -/

/-- The select registers where XLEN is MXLEN: each holds what is written, and the guest's name reaches its own
(R150). -/
theorem State.writeCsr_select {s : State} (hx : s.x = s.cfg.mxlen) (v : Word) :
    s.writeCsr .miselect v = { s with miselect := v }
      ∧ (isV s.mode = false → s.writeCsr .siselect v = { s with siselect := v })
      ∧ (isV s.mode = true → s.writeCsr .siselect v = { s with vsiselect := v })
      ∧ s.writeCsr .vsiselect v = { s with vsiselect := v } := by
  refine ⟨?_, fun hV => ?_, fun hV => ?_, ?_⟩
  · simp [State.writeCsr, aliasOf, State.widen_mxlen hx]
  · simp [State.writeCsr, aliasOf, State.widen_mxlen hx, hV]
  · simp [State.writeCsr, aliasOf, State.widen_mxlen hx, hV]
  · simp [State.writeCsr, aliasOf, State.widen_mxlen hx]

theorem State.writeCsr_stateen (s : State) (v : Word) :
    s.writeCsr .mstateen0 v = { s with mstateen0 := mergeBits s.mstateen0 v (coverLow s.x &&& stateenMask) }
      ∧ s.writeCsr .hstateen0 v = { s with hstateen0 := mergeBits s.hstateen0 v (coverLow s.x &&& stateenMask) }
      ∧ s.writeCsr .mstateen0h v
        = { s with mstateen0 := mergeBits s.mstateen0 (v <<< 32) (coverHigh &&& stateenMask) }
      ∧ s.writeCsr .hstateen0h v
        = { s with hstateen0 := mergeBits s.hstateen0 (v <<< 32) (coverHigh &&& stateenMask) } := by
  refine ⟨?_, ?_, ?_, ?_⟩ <;> simp [State.writeCsr, aliasOf]

theorem State.readCsr_stateenh (s : State) :
    s.readCsr .mstateen0h = s.mstateen0 >>> 32 ∧ s.readCsr .hstateen0h = s.hstateen0 >>> 32 := by
  constructor <;> simp [State.readCsr, aliasOf]

/-- Settles O46: the reads and the writes where XLEN is MXLEN are `hostReads` and `hostWrites`; the state enables hold
bits of the high half only. -/
theorem selectAndStateEnableWrites : Obligations.SelectAndStateEnableWrites := by
  refine ⟨State.hostReads, fun s v c hv => ?readback, fun s v _ => ?stateen, fun s v hx _ => ?mxlen⟩
  case readback =>
    refine ⟨fun hc => ?_, fun hc hlegal => ?_, fun hc => ?_⟩
    · rw [s.readCsr_writeCsr_whole v c hc, hv]
    · rw [s.readCsr_writeCsr_tvec hlegal c hc, hv]
    · rw [s.readCsr_writeCsr_epc v c hc, hv]
  case stateen =>
    obtain ⟨hmlow, hhlow, hmhigh, hhhigh⟩ := s.writeCsr_stateen v
    obtain ⟨hmread, hhread⟩ := s.readCsr_stateenh
    refine ⟨fun hx hheld => ?_, fun hx hheld => ?_, fun hx => ⟨?_, ?_, hmread, hhread, ?_, fun k hk => ?_, ?_,
      fun k hk => ?_⟩⟩
    · rw [hmlow, hx, mergeBits_stateen hheld]
    · rw [hhlow, hx, mergeBits_stateen hheld]
    · rw [hmlow, hx, coverLow_and_stateenMask, mergeBits_zero]
    · rw [hhlow, hx, coverLow_and_stateenMask, mergeBits_zero]
    · rw [hmhigh]
    · rw [hmhigh, mergeBits_stateenh_getLsbD _ _ hk]
    · rw [hhhigh]
    · rw [hhhigh, mergeBits_stateenh_getLsbD _ _ hk]
  case mxlen => exact ⟨State.hostWrites hx v, State.writeCsr_select hx v⟩

end Sys2Proof.Machine
end

section
/-! The access check (spec/42_state_enable.md R170 to R180): the registers it decides, what it answers in each mode, and
the trap of a forbidden access (spec/60_exceptions.md R350). -/

namespace Sys2Proof.Machine

/-! ### The two parts of the check -/

/-- What the check refuses in every mode: lines 1 to 3 of R180, and the parameters of log 10. -/
def State.csrAbsent (s : State) (c : Csr) : Bool :=
  csrHigh c && s.x != .x32 || !csrPresent s.cfg c || csrGroup c == .s && !s.cfg.hasS
    || csrGroup c == .vs && !s.cfg.hasH

/-- What a state-enable register refuses (R175, R179). -/
def State.stateenRefuses (s : State) (reg : Word) (c : Csr) : Bool :=
  s.csrIsCtr c && s.stateenOff reg 55 || csrIndirect c && s.stateenOff reg 60

/-- What every mode but M and Debug is refused as illegal: lines 5 to 7 of R180. -/
def State.lowerRefused (s : State) (c : Csr) : Bool := csrGroup c == .m || s.stateenRefuses s.mstateen0 c

/-- The check of a register that exists, by the mode: lines 4 to 14 of R180. -/
def State.checkByMode (s : State) (c : Csr) : Verdict :=
  match s.mode with
  | .M | .Debug => .pass
  | .U => .illegal
  | .S => if s.lowerRefused c then .illegal else .pass
  | .VU => if s.lowerRefused c then .illegal else .virtual
  | .VS =>
    if s.lowerRefused c then .illegal
    else if csrGroup c == .vs || s.stateenRefuses s.hstateen0 c then .virtual
    else .pass

/-- Where a register is absent the mode does not matter (D30). -/
theorem State.checkAccess_eq (s : State) (c : Csr) :
    s.checkAccess c = if s.csrAbsent c then .illegal else s.checkByMode c := by
  unfold State.checkAccess State.csrAbsent State.checkByMode State.lowerRefused State.stateenRefuses
  simp only [Bool.or_eq_true, ite_or]
  cases s.mode
  case U | VU => simp
  all_goals rfl

/-! ### The parts in the statement's terms -/

theorem csrPresent_eq_false_iff (cfg : Config) (c : Csr) :
    csrPresent cfg c = false ↔ c ∈ [Csr.medeleg, .mideleg] ∧ cfg.hasS = false
      ∨ c ∈ [Csr.mstateen0, .mstateen0h, .hstateen0, .hstateen0h] ∧ cfg.hasSmstateen = false := by
  cases c <;> simp [csrPresent]

theorem State.csrAbsent_iff (s : State) (c : Csr) :
    s.csrAbsent c = true ↔ (csrHigh c = true ∧ s.x = .x64) ∨ (csrGroup c = .s ∧ s.cfg.hasS = false)
      ∨ (csrGroup c = .vs ∧ s.cfg.hasH = false) ∨ (c ∈ [Csr.medeleg, .mideleg] ∧ s.cfg.hasS = false)
      ∨ (c ∈ [Csr.mstateen0, .mstateen0h, .hstateen0, .hstateen0h] ∧ s.cfg.hasSmstateen = false) := by
  have hx : s.x ≠ .x32 ↔ s.x = .x64 := by cases s.x <;> simp
  rw [← csrPresent_eq_false_iff]
  simp only [State.csrAbsent, Bool.or_eq_true, Bool.and_eq_true, Bool.not_eq_true', bne_iff_ne, beq_iff_eq, hx]
  tauto

theorem State.stateenRefuses_iff (s : State) (reg : Word) (c : Csr) :
    s.stateenRefuses reg c = true ↔
      (s.csrIsCtr c = true ∧ s.cfg.hasSmstateen = true ∧ reg.getLsbD 55 = false)
        ∨ (csrIndirect c = true ∧ s.cfg.hasSmstateen = true ∧ reg.getLsbD 60 = false) := by
  simp only [State.stateenRefuses, State.stateenOff, Bool.or_eq_true, Bool.and_eq_true, Bool.not_eq_true']

theorem State.lowerRefused_iff (s : State) (c : Csr) :
    s.lowerRefused c = true ↔ csrGroup c = .m ∨ s.stateenRefuses s.mstateen0 c = true := by
  simp only [State.lowerRefused, Bool.or_eq_true, beq_iff_eq]

theorem State.checkByMode_eq_illegal_iff (s : State) (c : Csr) :
    s.checkByMode c = .illegal ↔
      s.mode ≠ .M ∧ s.mode ≠ .Debug ∧ (s.lowerRefused c = true ∨ s.mode = .U) := by
  unfold State.checkByMode
  cases s.mode
  case VS => cases s.lowerRefused c <;> simp [apply_ite (· = Verdict.illegal)]
  all_goals simp

/-- Below M-mode the registers of group `m` are refused already, so a virtual access is of group `s` or `vs`. -/
theorem State.checkByMode_eq_virtual_iff (s : State) (c : Csr) :
    s.checkByMode c = .virtual ↔ s.checkByMode c ≠ .illegal ∧ ((csrGroup c = .vs ∧ isV s.mode = true)
      ∨ (csrGroup c = .s ∧ s.mode = .VU)
      ∨ (csrGroup c = .s ∧ s.mode = .VS ∧ s.stateenRefuses s.hstateen0 c = true)) := by
  unfold State.checkByMode
  cases hl : s.lowerRefused c
  case true => cases s.mode <;> simp [isV]
  case false =>
    have hgroup : csrGroup c = .s ∨ csrGroup c = .vs := by
      cases h : csrGroup c
      case m => simp [(s.lowerRefused_iff c).mpr (.inl h)] at hl
      all_goals simp
    cases s.mode
    case VS => cases s.stateenRefuses s.hstateen0 c <;> rcases hgroup with h | h <;> simp [h, isV]
    case VU => simpa [isV] using hgroup.symm
    all_goals simp [isV]

/-- Settles O35: a register is absent, or its verdict is that of the mode (`State.checkAccess_eq`). The tables are
evaluated register by register, since the state they are for is arbitrary. -/
theorem accessCheckOutcomes : Obligations.AccessCheckOutcomes := by
  refine ⟨fun s => ?ctr, ?indirect, fun s => ?host, fun s => ?select, fun s r => ⟨rfl, rfl, rfl⟩, fun s c => ?verdict⟩
  case ctr =>
    simp only [List.forall_mem_cons, List.not_mem_nil, false_imp_iff, implies_true, and_true]
    and_intros <;> rfl
  case indirect => decide
  case host =>
    simp only [List.forall_mem_cons, List.not_mem_nil, false_imp_iff, implies_true, and_true]
    and_intros <;> rfl
  case select =>
    simp only [List.forall_mem_cons, List.not_mem_nil, false_imp_iff, implies_true, and_true]
    and_intros <;> rfl
  case verdict =>
    intro off bad virt
    have hbad : bad ↔ s.csrAbsent c = true ∨ s.checkByMode c = .illegal := by
      simp only [s.csrAbsent_iff, s.checkByMode_eq_illegal_iff, s.lowerRefused_iff, s.stateenRefuses_iff, or_assoc,
        bad, off]
    have hvirtual : s.checkByMode c = .virtual ↔ s.checkByMode c ≠ .illegal ∧ virt := by
      simp only [s.checkByMode_eq_virtual_iff, s.stateenRefuses_iff, virt, off]
    rw [hbad, s.checkAccess_eq]
    cases s.csrAbsent c
    case true => simp
    case false => simp [← hvirtual]

/-! ### A forbidden access -/

/-- A trap entry is the statements' taken trap, for each of the three modes a trap can enter (R360). -/
theorem State.trapTaken_trapInto (s : State) (isInt : Bool) (e : Exc) :
    s.TrapTaken (s.trapInto isInt e (s.trapTarget isInt e.cause)) isInt e := by
  have hbase (m : Mode) : s.BaseKept (s.trapInto isInt e m) := by constructor <;> simp
  rcases s.trapTarget_cases isInt e.cause with h | ⟨h, -⟩ | ⟨h, -⟩ <;> rw [h] <;> exact
    { mode := h.symm, pc := rfl, epc := rfl, cause := rfl, tval := rfl, tvec := rfl, ctr := rfl, regs := rfl
      base := hbase _
      toM := by simp [State.trapInto, State.saveTrap]
      toS := by simp [State.trapInto, State.saveTrap]
      toVS := by simp [State.trapInto, State.saveTrap] }

theorem State.raise_traps (s : State) (e : Exc) : ∃ t, s.raise e = .next t ∧ s.TrapTaken t false e :=
  ⟨_, s.raise_next e, s.trapTaken_trapInto false e⟩

/-- An access of no register, or of one the check finds illegal (R180, R344). -/
theorem State.csrOp_illegal {s : State} {n : CsrNum}
    (hn : csrOf n = none ∨ ∃ c, csrOf n = some c ∧ s.checkAccess c = .illegal) (i : Instr) (rd : Reg)
    (write : Option (Word → Word)) : s.csrOp i n rd write = s.raise (excIllegal s i) := by
  rcases hn with hc | ⟨c, hc, hcheck⟩
  · simp only [State.csrOp, hc]
  · simp only [State.csrOp, hc, hcheck]

theorem State.csrOp_virtual {s : State} {n : CsrNum} {c : Csr} (hc : csrOf n = some c)
    (hcheck : s.checkAccess c = .virtual) (i : Instr) (rd : Reg) (write : Option (Word → Word)) :
    s.csrOp i n rd write = s.raise (excVirtual s i) := by
  simp only [State.csrOp, hc, hcheck]

/-- Settles O34: the operation the six instructions share raises the exception, and the trap is its whole effect. -/
theorem forbiddenCsrAccessTraps : Obligations.ForbiddenCsrAccessTraps := by
  intro s i n hi
  obtain ⟨rd, write, hexec⟩ := exec_eq_csrOp s hi
  rw [hexec]
  refine ⟨fun hillegal => ?_, fun ⟨c, hc, hvirtual⟩ => ?_⟩
  · rw [State.csrOp_illegal hillegal]
    exact s.raise_traps (excIllegal s i)
  · rw [State.csrOp_virtual hc hvirtual]
    exact s.raise_traps (excVirtual s i)

end Sys2Proof.Machine
end

section
/-! `jal`, `jalr` and the six branches (spec/45_transfer_type_filtering.md R260 to R267): each is the shared jump or
branch, which transfers to an aligned target and traps on another (spec/60_exceptions.md R350). -/

namespace Sys2Proof.Machine

/-! ### The jumps -/

/-- The default kind of a `jal` (R233). -/
theorem jalKind_eq (rd : Reg) :
    jalKind rd = if rd = 0 then .dirjump else if rd = 1 ∨ rd = 5 then .dircall else .dirojmp := by
  simp only [jalKind, isLink_iff]

/-- The default kind of a `jalr`, with the two link registers of a swap told apart first (R233). -/
theorem jalrKind_eq (rd rs1 : Reg) :
    jalrKind rd rs1 = if (rd = 1 ∨ rd = 5) ∧ (rs1 = 1 ∨ rs1 = 5) ∧ rd ≠ rs1 then .corswap
      else if rd = 1 ∨ rd = 5 then .indcall
      else if rs1 = 1 ∨ rs1 = 5 then .ret
      else if rd = 0 then .indjump else .indojmp := by
  simp only [jalrKind, isLink_iff]
  by_cases hrd : rd = 1 ∨ rd = 5
  case neg => simp only [hrd, false_and, if_false]
  case pos =>
    by_cases hrs1 : rs1 = 1 ∨ rs1 = 5
    case neg => simp only [hrd, hrs1, false_and, and_false, if_true, if_false]
    case pos => simp only [hrd, hrs1, true_and, if_true, ne_eq, ite_not]

theorem exec_jal (s : State) (rd : Reg) (off : BitVec 21) :
    exec (.jal rd off) s = s.jump (s.classified (.jal rd off) true (jalKind rd)) (s.pcPlus off) rd (s.pcNext 4) := by
  rw [← kindOf_eq_classified]
  rfl

theorem exec_jalr (s : State) (rd rs1 : Reg) (imm : BitVec 12) :
    exec (.jalr rd rs1 imm) s
      = s.jump (s.classified (.jalr rd rs1 imm) true (jalrKind rd rs1)) (s.jalrTarget rs1 imm) rd (s.pcNext 4) := by
  rw [← kindOf_eq_classified]
  rfl

/-- A jump of 4 bytes leaves pc + 4 in its link register. -/
theorem State.jump_transferred_pcNext {s : State} {a : Word} (ha : s.Aligned a) (k : Kind) (rd : Reg) :
    ∃ t, s.jump k a rd (s.pcNext 4) = .next t ∧ s.Transferred t k a rd
      ∧ t.reg rd = if rd = 0 then 0 else trunc s.x (s.pc + 4) := by
  have hlink : trunc s.x (s.pcNext 4) = trunc s.x (s.pc + 4) := trunc_trunc s.x _
  rw [← hlink]
  exact State.jump_transferred ha k rd _

/-- Settles O24: `jal` is the shared jump, with the default kind of R233. -/
theorem jalTransfers : Obligations.JalTransfers := by
  rintro s rd off _ rfl ha
  rw [exec_jal, ← jalKind_eq]
  exact State.jump_transferred_pcNext ha _ rd

/-- Settles O25: `jalr` is the shared jump, with the default kind of R233. -/
theorem jalrTransfers : Obligations.JalrTransfers := by
  rintro s rd rs1 imm _ _ rfl ha rfl
  rw [exec_jalr, ← jalrKind_eq]
  exact State.jump_transferred_pcNext ha _ rd

/-! ### The branches -/

/-- The signed comparison is that of the registers read as XLEN-bit numbers (R264). -/
theorem State.ltSigned_iff (s : State) (a b : Reg) :
    ltSigned s.x (s.reg a) (s.reg b) = true ↔ s.signedReg a < s.signedReg b := by
  unfold ltSigned State.signedReg
  cases s.x <;> exact BitVec.slt_iff_toInt_lt

/-- `i` is the branch of 4 bytes to `a` that is taken where `taken` holds. -/
def State.IsBranch (s : State) (i : Instr) (taken : Prop) (a : Word) : Prop :=
  ∃ b, (b = true ↔ taken) ∧ exec i s = s.branch i b a 4

section
variable (s : State) (rs1 rs2 : Reg) (off : BitVec 13)

theorem State.isBranch_beq : s.IsBranch (.beq rs1 rs2 off) (s.reg rs1 = s.reg rs2) (s.pcPlus off) :=
  ⟨_, beq_iff_eq, rfl⟩

theorem State.isBranch_bne : s.IsBranch (.bne rs1 rs2 off) (s.reg rs1 ≠ s.reg rs2) (s.pcPlus off) :=
  ⟨_, bne_iff_ne, rfl⟩

theorem State.isBranch_blt : s.IsBranch (.blt rs1 rs2 off) (s.signedReg rs1 < s.signedReg rs2) (s.pcPlus off) :=
  ⟨_, s.ltSigned_iff rs1 rs2, rfl⟩

theorem State.isBranch_bge : s.IsBranch (.bge rs1 rs2 off) (s.signedReg rs2 ≤ s.signedReg rs1) (s.pcPlus off) :=
  ⟨_, by rw [Bool.not_eq_true', ← Bool.not_eq_true, s.ltSigned_iff, Int.not_lt], rfl⟩

theorem State.isBranch_bltu :
    s.IsBranch (.bltu rs1 rs2 off) ((s.reg rs1).toNat < (s.reg rs2).toNat) (s.pcPlus off) :=
  ⟨_, BitVec.ult_iff_toNat_lt, rfl⟩

theorem State.isBranch_bgeu :
    s.IsBranch (.bgeu rs1 rs2 off) ((s.reg rs2).toNat ≤ (s.reg rs1).toNat) (s.pcPlus off) :=
  ⟨_, by rw [Bool.not_eq_true', ← Bool.not_eq_true, BitVec.ult_iff_toNat_lt, Nat.not_lt], rfl⟩

end

theorem State.IsBranch.branches {s : State} {i : Instr} {taken : Prop} {a : Word} (h : s.IsBranch i taken a) :
    s.Branches i (exec i s) taken a 4 := by
  obtain ⟨b, hb, hexec⟩ := h
  rw [hexec]
  exact s.branches_branch i hb a 4

/-- Settles O26: the condition of each branch is the one the statement gives, and the shared operation does the rest. -/
theorem branchesTransfer : Obligations.BranchesTransfer := by
  rintro s rs1 rs2 off _ rfl
  exact ⟨(s.isBranch_beq rs1 rs2 off).branches, (s.isBranch_bne rs1 rs2 off).branches,
    (s.isBranch_blt rs1 rs2 off).branches, (s.isBranch_bge rs1 rs2 off).branches,
    (s.isBranch_bltu rs1 rs2 off).branches, (s.isBranch_bgeu rs1 rs2 off).branches⟩

/-! ### Misaligned targets -/

theorem State.misaligned_iff (s : State) (a : Word) :
    s.misaligned a = true ↔ s.cfg.hasC = false ∧ a.extractLsb' 0 2 ≠ 0 := by
  simp only [State.misaligned, Bool.and_eq_true, Bool.not_eq_true', bne_iff_ne]

section
variable {s : State} {a : Word} (hmis : s.misaligned a = true)
include hmis

/-- A jump to a misaligned target traps before it links (R200). -/
theorem State.jump_misaligned (k : Kind) (rd : Reg) (l : Word) :
    ∃ t, s.jump k a rd l = .next t ∧ s.TrapTaken t false ⟨0, a⟩ := by
  have hjump : s.jump k a rd l = s.raise (excMisaligned a) := if_pos hmis
  rw [hjump]
  exact s.raise_traps (excMisaligned a)

/-- Only a taken branch looks at its target. -/
theorem State.IsBranch.trapsIfTaken {i : Instr} {taken : Prop} (h : s.IsBranch i taken a) :
    s.TrapsIfTaken i taken a := by
  refine ⟨fun htaken => ?_, h.branches.2⟩
  obtain ⟨b, hb, hexec⟩ := h
  have hbranch : s.branch i b a 4 = s.raise (excMisaligned a) := by
    rw [State.branch, if_pos (hb.mpr htaken), if_pos hmis]
  rw [hexec, hbranch]
  exact s.raise_traps (excMisaligned a)

end

/-- Settles O28: the shared operations check the target before they change anything. -/
theorem misalignedTargetTraps : Obligations.MisalignedTargetTraps := by
  intro s target hC htarget
  have hmis : s.misaligned target = true := (s.misaligned_iff target).mpr ⟨hC, htarget⟩
  refine ⟨?jal, ?jalr, ?branches⟩
  case jal =>
    rintro rd off rfl
    rw [exec_jal]
    exact State.jump_misaligned hmis _ rd _
  case jalr =>
    rintro rd rs1 imm rfl
    rw [exec_jalr]
    exact State.jump_misaligned hmis _ rd _
  case branches =>
    rintro rs1 rs2 off rfl
    exact ⟨(s.isBranch_beq rs1 rs2 off).trapsIfTaken hmis, (s.isBranch_bne rs1 rs2 off).trapsIfTaken hmis,
      (s.isBranch_blt rs1 rs2 off).trapsIfTaken hmis, (s.isBranch_bge rs1 rs2 off).trapsIfTaken hmis,
      (s.isBranch_bltu rs1 rs2 off).trapsIfTaken hmis, (s.isBranch_bgeu rs1 rs2 off).trapsIfTaken hmis⟩

end Sys2Proof.Machine
end

section
/-! The ring of entries (spec/43_recording.md R194, R195): where the logical entries stand around the write pointer, and
what a push does to them. -/

namespace Sys2Proof.Machine

/-! ### The slots around the write pointer -/

/-- The slot of a logical entry without a remainder: down from the write pointer, and on from the top (R151). -/
theorem Ctr.phys_val_of_lt (c : Ctr) {i : Nat} (hi : i < c.depth) :
    (c.phys i).val = if i < c.wp.val then c.wp.val - 1 - i else c.wp.val + c.depth - 1 - i := by
  have hwp := c.wp_lt
  rw [c.phys_val, ← c.wp_val]
  split
  case isTrue hlow =>
    rw [show c.wp.val + c.depth - 1 - i = c.wp.val - 1 - i + c.depth by omega, Nat.add_mod_right]
    exact Nat.mod_eq_of_lt (by omega)
  case isFalse => exact Nat.mod_eq_of_lt (by omega)

/-- Only the oldest logical entry stands at the write pointer. -/
theorem Ctr.phys_ne_wp (c : Ctr) {i : Nat} (hi : i + 1 < c.depth) : c.phys i ≠ c.wp := by
  intro he
  have hval := c.phys_val_of_lt (Nat.lt_of_succ_lt hi)
  rw [he] at hval
  split at hval <;> omega

/-- The write pointer after a push: one on, and from the top back to 0. -/
theorem Ctr.wp_add_one_mod (c : Ctr) :
    (c.wp.val + 1) % c.depth = if c.wp.val + 1 = c.depth then 0 else c.wp.val + 1 := by
  have hwp := c.wp_lt
  split
  case isTrue htop => rw [htop, Nat.mod_self]
  case isFalse => exact Nat.mod_eq_of_lt (by omega)

/-! ### A push -/

section
variable (cfg : Config) (c : Ctr) (e : Entry)

@[simp] theorem Ctr.push_depth : (c.push cfg e).depth = c.depth := Ctr.depth_congr rfl

theorem Ctr.push_wrptr_toNat : (c.push cfg e).wrptr.toNat = (c.wp.val + 1) % c.depth := by
  have hdepth := c.depth_le
  have hnext : (c.wp.val + 1) % c.depth < c.depth := Nat.mod_lt _ c.depth_pos
  rw [c.push_wrptr cfg e, BitVec.toNat_ofNat]
  exact Nat.mod_eq_of_lt (by omega)

theorem Ctr.push_wp_val : (c.push cfg e).wp.val = (c.wp.val + 1) % c.depth := by
  rw [Ctr.wp_val, c.push_wrptr_toNat, c.push_depth, Nat.mod_mod]

/-- The slot written is the one of the newest entry. -/
theorem Ctr.push_phys_zero : (c.push cfg e).phys 0 = c.wp := by
  have hwp := c.wp_lt
  apply Fin.ext
  rw [Ctr.phys_val_of_lt _ (Ctr.depth_pos _), c.push_wp_val, c.wp_add_one_mod, c.push_depth]
  split_ifs <;> omega

/-- The slots of the older entries are named one higher. -/
theorem Ctr.push_phys_succ {i : Nat} (hi : i + 1 < c.depth) : (c.push cfg e).phys (i + 1) = c.phys i := by
  have hwp := c.wp_lt
  apply Fin.ext
  rw [Ctr.phys_val_of_lt _ (by rwa [c.push_depth]), c.push_wp_val, c.wp_add_one_mod, c.push_depth,
    c.phys_val_of_lt (Nat.lt_of_succ_lt hi)]
  split_ifs <;> omega

theorem Ctr.push_entry_zero : (c.push cfg e).entry 0 = e := by
  rw [Ctr.entry, c.push_phys_zero, c.push_arr]
  exact Vector.getElem_set_self _

theorem Ctr.push_entry_succ {i : Nat} (hi : i + 1 < c.depth) : (c.push cfg e).entry (i + 1) = c.entry i := by
  have hother : c.wp.val ≠ (c.phys i).val := fun he => c.phys_ne_wp hi (Fin.ext he.symm)
  rw [Ctr.entry, c.push_phys_succ cfg e hi, c.push_arr]
  exact Vector.getElem_set_ne _ _ hother

end

/-- Settles O48: the pushed record's slot is logical entry 0 of the moved pointer, and the other slots are named one
higher. -/
theorem pushShiftsEntriesDown : Obligations.PushShiftsEntriesDown := by
  intro cfg c e p hp
  obtain rfl : p = c.wp := Fin.ext hp
  exact ⟨rfl, c.push_wrptr_toNat cfg e, c.push_entry_zero cfg e, fun i hi => c.push_entry_succ cfg e hi⟩

/-! ### Pushes after a clear -/

/-- What the recorder holds of the records pushed since a clear: the newest first and zeros behind them, and a write
pointer and WRAP that count them. -/
structure Ctr.HoldsPushed (c : Ctr) (es : List Entry) : Prop where
  entry : ∀ i, i < c.depth → c.entry i = es.reverse[i]?.getD Entry.zero
  wrap : c.wrap = decide (c.depth ≤ es.length)
  wrptr : c.wrptr.toNat = es.length % c.depth

theorem Ctr.clear_holdsPushed (cfg : Config) (ev : Nat) (c : Ctr) : (c.clear cfg ev).HoldsPushed [] where
  entry i _ := by
    rw [Ctr.entry, c.clear_arr, Vector.get_eq_getElem, Vector.getElem_replicate]
    rfl
  wrap := by
    rw [c.clear_wrap]
    exact (decide_eq_false (Nat.not_le.mpr (Ctr.depth_pos _))).symm
  wrptr := by
    rw [c.clear_wrptr]
    exact (Nat.zero_mod _).symm

/-- The pointer leaves the top exactly when the array becomes full, until then it has counted the records. -/
theorem Ctr.HoldsPushed.push {c : Ctr} {es : List Entry} (h : c.HoldsPushed es) (cfg : Config) (e : Entry) :
    (c.push cfg e).HoldsPushed (es ++ [e]) := by
  have hdepth := c.depth_pos
  have hwp : c.wp.val = es.length % c.depth := by rw [c.wp_val, h.wrptr, Nat.mod_mod]
  constructor
  case entry =>
    intro i hi
    rw [c.push_depth] at hi
    rw [List.reverse_concat]
    cases i with
    | zero => exact c.push_entry_zero cfg e
    | succ i =>
      rw [c.push_entry_succ cfg e hi, h.entry i (Nat.lt_of_succ_lt hi), List.getElem?_cons_succ]
  case wrap =>
    have hfull : (c.depth ≤ es.length ∨ es.length % c.depth = c.depth - 1) ↔ c.depth ≤ es.length + 1 := by
      rcases Nat.lt_or_ge es.length c.depth with hlt | hge
      · rw [Nat.mod_eq_of_lt hlt]
        omega
      · omega
    rw [c.push_wrap, c.push_depth, h.wrap, hwp, List.length_append, Bool.eq_iff_iff]
    simpa using hfull
  case wrptr => rw [c.push_wrptr_toNat, c.push_depth, hwp, Nat.mod_add_mod, List.length_append, List.length_singleton]

theorem Ctr.HoldsPushed.pushAll {c : Ctr} {old : List Entry} (h : c.HoldsPushed old) (cfg : Config)
    (es : List Entry) : (c.pushAll cfg es).HoldsPushed (old ++ es) := by
  induction es generalizing c old with
  | nil => rwa [List.append_nil]
  | cons e es ih =>
    rw [List.append_cons]
    exact ih (h.push cfg e)

theorem Ctr.pushAll_depth (cfg : Config) (c : Ctr) (es : List Entry) : (c.pushAll cfg es).depth = c.depth := by
  induction es generalizing c with
  | nil => rfl
  | cons e es ih => exact (ih (c.push cfg e)).trans (c.push_depth cfg e)

/-- Settles O51: `Ctr.HoldsPushed` holds after the clear and every push keeps it. -/
theorem pushesFillFromClear : Obligations.PushesFillFromClear := by
  intro cfg ev c es hvalid d
  have hdepth : d.depth = c.depth := (Ctr.pushAll_depth cfg _ es).trans (Ctr.depth_congr (c.clear_mctl cfg ev))
  have hholds : d.HoldsPushed es := (c.clear_holdsPushed cfg ev).pushAll cfg es
  have hnewest (i : Nat) (h : i < es.length) (hi : i < c.depth) : d.entry i = es[es.length - 1 - i] := by
    rw [hholds.entry i (hdepth ▸ hi), List.getElem?_reverse h, List.getElem?_eq_getElem (by omega), Option.getD_some]
  refine ⟨hnewest, fun i hi => ⟨fun hv => ?inside, fun h => ?isValid⟩, hdepth ▸ hholds.wrap,
    hdepth ▸ hholds.wrptr⟩
  case inside =>
    by_contra hout
    rw [hholds.entry i (hdepth ▸ hi), List.getElem?_eq_none (by simpa using hout)] at hv
    exact absurd hv (by decide)
  case isValid =>
    rw [hnewest i h hi]
    exact hvalid _ (List.getElem_mem _)

end Sys2Proof.Machine
end

section
/-! What a retired transfer records (spec/43_recording.md R190 to R193, R199): the bits that decide it, and the record
it pushes (spec/10_state.md section 8). -/

namespace Sys2Proof.Machine

/-! ### Enables and filters -/

theorem isV_iff (m : Mode) : isV m = true ↔ m = .VS ∨ m = .VU := by cases m <;> decide

theorem Ctr.ctl_eq (c : Ctr) (m : Mode) : c.ctl m = if m = .VS ∨ m = .VU then c.vsctl else c.mctl := by
  simp only [Ctr.ctl, isV_iff]

/-- The active control register depends on V alone. -/
theorem Ctr.ctl_congr (c : Ctr) {m n : Mode} (h : isV m = isV n) : c.ctl m = c.ctl n := by
  rw [Ctr.ctl, Ctr.ctl, h]

theorem Ctr.cfgOf_eq (cfg : Config) (c : Ctr) (sm tm : Mode) :
    c.cfgOf cfg sm tm = if cfg.crossV = .source then c.ctl sm else c.ctl tm := by
  unfold Ctr.cfgOf
  cases cfg.crossV <;> rfl

/-- One bit governs each kind: bit 32 + TYPE, which of a not-taken branch lets it in (R231, R234). -/
theorem inhibited_eq (c : Word) (k : Kind) :
    inhibited c k = if k = .ntbr then !c.getLsbD 36 else c.getLsbD (32 + (typeCode k).toNat) := by
  cases k <;> rfl

/-- Settles O53: the enables and opt-ins are read off the model's tables; a trap or return within one V has one active
register, whichever of its modes the parameter names. -/
theorem enableAndFilterBits : Obligations.EnableAndFilterBits := by
  refine ⟨fun c => ⟨rfl, rfl, rfl, rfl, rfl, rfl⟩, Ctr.ctl_eq,
    fun cfg c sm tm => ⟨fun hV => ?_, c.cfgOf_eq cfg sm tm⟩, fun c => ⟨rfl, rfl, rfl, rfl, rfl, rfl⟩, isV_iff,
    inhibited_eq⟩
  rw [c.cfgOf_eq, c.ctl_congr hV, ite_self]

/-! ### Which transfers are recorded -/

section
variable {cfg : Config} {c : Ctr} {k : Kind} {m : Mode}

/-- A transfer is not qualified: its mode is inhibited, the recorder is frozen, or its kind is filtered out. -/
theorem Ctr.onRetire_of_unqualified (h : c.enabled m = false ∨ c.frozen = true
    ∨ ctlBit (c.ctl m) .rasemu = false ∧ inhibited (c.ctl m) k = true) (pc target : Word) (misp : Bool) :
    c.onRetire cfg k m pc target misp = c := by
  unfold Ctr.onRetire
  rcases h with henabled | hfrozen | ⟨hras, hinh⟩
  · simp only [henabled, Bool.not_false, if_true, ite_self]
  · simp only [hfrozen, if_true, ite_self]
  · simp only [hras, hinh, if_true, Bool.false_eq_true, if_false, ite_self]

/-- A qualified transfer outside RAS emulation pushes its record; Debug Mode is never enabled. -/
theorem Ctr.onRetire_of_qualified (henabled : c.enabled m = true) (hfrozen : c.frozen = false)
    (hras : ctlBit (c.ctl m) .rasemu = false) (hinh : inhibited (c.ctl m) k = false) (pc target : Word)
    (misp : Bool) :
    c.onRetire cfg k m pc target misp = c.push cfg (c.makeRecord cfg false (typeCode k)
      (pcField cfg (xlenOf cfg m) pc) (pcField cfg (xlenOf cfg m) target) misp) := by
  have hdebug : m ≠ .Debug := by
    rintro rfl
    exact absurd henabled Bool.false_ne_true
  simp only [Ctr.onRetire, hdebug, henabled, hfrozen, hras, hinh, Bool.not_true, Bool.false_eq_true, if_false]

end

/-! ### The record -/

theorem pcField_eq (cfg : Config) (x : Xlen) (a : Word) :
    pcField cfg x a = legalizeVa cfg (if x = .x32 then 31 else 63) ((trunc x a).extractLsb' 1 63) := by
  cases x <;> rfl

/-- A PC field with a bit 0 of its own is the address with that bit. -/
theorem extract_append_ofBool (v : Word) (b : Bool) :
    v.extractLsb' 1 63 ++ BitVec.ofBool b = (v &&& ~~~(1 : Word)) ||| (if b then 1 else 0) := by
  have hbit : (if b then 1 else 0 : Word) = bitIf b 0 := by cases b <;> rfl
  have hone : (1 : Word) = bitIf true 0 := rfl
  apply BitVec.eq_of_getLsbD_eq
  intro k hk
  rw [hbit, hone, BitVec.getLsbD_or, BitVec.getLsbD_and, BitVec.getLsbD_not, bitIf_getLsbD _ (by decide),
    bitIf_getLsbD _ (by decide), BitVec.getLsbD_append]
  cases k with
  | zero => simp
  | succ k => simp [hk, Nat.add_comm 1 k, (by omega : k < 63)]

/-- A PC field with V is the address with its bit 0 set. -/
theorem extract_append_one (v : Word) : v.extractLsb' 1 63 ++ 1#1 = v ||| 1 := by
  rw [show 1#1 = BitVec.ofBool true from rfl, extract_append_ofBool, if_pos rfl]
  apply BitVec.eq_of_getLsbD_eq
  intro k hk
  simp only [BitVec.getLsbD_or, BitVec.getLsbD_and, BitVec.getLsbD_not, hk, decide_true, Bool.true_and]
  cases (1 : Word).getLsbD k <;> simp

theorem getLsbD_ite_zero {w : Nat} (b : Bool) (v : BitVec w) (i : Nat) :
    (if b then v else 0).getLsbD i = (b && v.getLsbD i) := by
  cases b
  case false => exact BitVec.getLsbD_zero
  case true => rfl

/-- `ctrdata` of a record, bit by bit, from the places of its fields (R54): TYPE at 3:0, CCV at 15, CC at 31:16. -/
theorem Ctr.recordData_getLsbD (cfg : Config) (c : Ctr) (ras : Bool) (type : BitVec 4) (i : Nat) :
    (c.recordData cfg ras type).getLsbD i =
      if i < 4 then cfg.hasType && type.getLsbD i
      else if i = 15 then cfg.hasCc && c.ccValidNow cfg ras
      else if 16 ≤ i ∧ i < 32 then cfg.hasCc && (ccEncode cfg c.ccCount).getLsbD (i - 16) else false := by
  simp only [Ctr.recordData, BitVec.getLsbD_append, getLsbD_ite_zero, BitVec.getLsbD_zero]
  rcases (by omega : i < 4 ∨ 4 ≤ i ∧ i < 15 ∨ i = 15 ∨ 16 ≤ i ∧ i < 32 ∨ 32 ≤ i)
    with htype | hgap | hccv | hcc | habove
  all_goals grind

/-- The parts of `ctrdata` are joined by `or`, each at its place. -/
theorem Ctr.recordData_eq_or (cfg : Config) (c : Ctr) (ras : Bool) (type : BitVec 4) :
    c.recordData cfg ras type = (if cfg.hasType then type.setWidth 64 else 0)
      ||| (if cfg.hasCc then (ccEncode cfg c.ccCount).setWidth 64 <<< 16
          ||| (if c.ccValidNow cfg ras then 0x8000 else 0) else 0) := by
  have hccv : (if c.ccValidNow cfg ras then 0x8000 else 0 : Word) = bitIf (c.ccValidNow cfg ras) 15 := rfl
  apply BitVec.eq_of_getLsbD_eq
  intro i hi
  rw [c.recordData_getLsbD cfg ras type i, hccv]
  simp only [BitVec.getLsbD_or, getLsbD_ite_zero, BitVec.getLsbD_shiftLeft, BitVec.getLsbD_setWidth,
    bitIf_getLsbD _ (by decide : 15 < 64)]
  split_ifs with htype hvalid hcc <;> grind

/-- Where addresses are not converted the two PCs of a record are the addresses, cut to XLEN (R193, log 24). -/
theorem Ctr.makeRecord_exact {cfg : Config} (hexact : cfg.vaMode = .exact) (c : Ctr) (x y : Xlen) (type : BitVec 4)
    (pc target : Word) (misp : Bool) :
    c.makeRecord cfg false type (pcField cfg x pc) (pcField cfg y target) misp =
      ⟨trunc x pc ||| 1, (trunc y target &&& ~~~(1 : Word)) ||| (if misp && cfg.hasMisp then 1 else 0),
        (if cfg.hasType then type.setWidth 64 else 0)
          ||| (if cfg.hasCc then (ccEncode cfg c.ccCount).setWidth 64 <<< 16 ||| (if c.ccOk then 0x8000 else 0)
            else 0)⟩ := by
  have hok : c.ccValidNow cfg false = c.ccOk := Bool.and_true _
  rw [Ctr.makeRecord, pcField, pcField, legalizeVa_exact hexact, legalizeVa_exact hexact, extract_append_one,
    extract_append_ofBool, c.recordData_eq_or, hok]

/-- Settles O52: whether the transfer is qualified decides between no change and a push, and the record is spelled out
by its PC fields and the bits of `ctrdata`. -/
theorem retireRecordsWhenQualified : Obligations.RetireRecordsWhenQualified := by
  intro cfg c k m pc target misp
  refine ⟨fun h => Ctr.onRetire_of_unqualified h pc target misp,
    fun henabled hfrozen hras hinh => Ctr.onRetire_of_qualified henabled hfrozen hras hinh pc target misp,
    fun hexact henabled hfrozen hras hinh => ?exact, pcField_eq cfg, fun ras type s t => ⟨rfl, rfl, fun i _ => ?bits⟩⟩
  case exact =>
    rw [Ctr.onRetire_of_qualified henabled hfrozen hras hinh, Ctr.makeRecord_exact hexact]
  case bits =>
    rw [Bool.and_assoc]
    exact c.recordData_getLsbD cfg ras type i

end Sys2Proof.Machine
end

section
/-! What an instruction can do to the mode and to the recorder, said once for all of them (spec/43_recording.md R199,
spec/60_exceptions.md R350, R360, R361). -/

namespace Sys2Proof.Machine

/-- The four things an instruction can do: trap, retire a transfer, return from a trap, which it cannot in the two user
modes, or access a register. -/
inductive State.Effect (s : State) (i : Instr) (t : State) : Prop where
  | trap (e : Exc) (h : s.TrapTaken t false e)
  | transfer (k : Kind) (target : Word) (rd : Reg) (h : s.Transferred t k target rd)
  | ret (tm : Mode) (target : Word) (huser : ¬(s.mode = .U ∨ s.mode = .VU)) (h : s.TrapReturned t tm target)
  | access (hcsr : i.isCsr = true) (hmode : t.mode = s.mode)

/-! ### The shared operations -/

theorem State.trapTaken_of_raise {s t : State} {e : Exc} (h : s.raise e = .next t) : s.TrapTaken t false e := by
  rw [State.takeTrap_cases h]
  exact s.trapTaken_trapInto false e

/-- A return after a change of the status registers alone is the statements' return. -/
theorem State.trapReturned_returnTo (s : State) (m : MStatus) (v : VsStatus) (tm : Mode) (epc : Word) :
    s.TrapReturned (State.returnTo { s with mstatus := m, vsstatus := v } tm epc) tm
      (trunc (xlenOf s.cfg tm) (s.returnAddress (trunc s.x epc))) where
  mode := rfl
  pc := rfl
  ctr := rfl
  regs := rfl
  mtrap := rfl
  strap := rfl
  vstrap := rfl
  hstatus := rfl
  base := by constructor <;> intros <;> rfl

section
variable {s t : State} {i : Instr}

theorem State.raise_effect {e : Exc} (h : s.raise e = .next t) : s.Effect i t :=
  .trap e (State.trapTaken_of_raise h)

theorem State.jump_effect {k : Kind} {a : Word} {rd : Reg} {l : Word} (h : s.jump k a rd l = .next t) :
    s.Effect i t := by
  rcases State.jump_cases h with ⟨-, htrap⟩ | ⟨-, rfl⟩
  · exact State.raise_effect htrap
  · exact .transfer k a rd (s.transferred_setReg_retire k a rd l)

theorem State.branch_effect {j : Instr} {b : Bool} {a : Word} {n : Nat} (h : s.branch j b a n = .next t) :
    s.Effect i t := by
  rcases State.branch_cases h with ⟨-, rfl⟩ | ⟨-, -, rfl⟩ | ⟨-, -, htrap⟩
  · exact .transfer _ _ 0 (s.transferred_retire _ _)
  · exact .transfer _ _ 0 (s.transferred_retire _ _)
  · exact State.raise_effect htrap

theorem State.compressed_effect {j : Instr} {o : Out} (h : s.compressed j o = .next t)
    (hrun : o = .next t → s.Effect i t) : s.Effect i t := by
  rcases State.compressed_cases h with ⟨-, ho⟩ | ⟨-, htrap⟩
  · exact hrun ho
  · exact State.raise_effect htrap

theorem State.csrOp_effect {j : Instr} {n : CsrNum} {rd : Reg} {w : Option (Word → Word)} (hcsr : i.isCsr = true)
    (h : s.csrOp j n rd w = .next t) : s.Effect i t := by
  rcases State.csrOp_cases h with ⟨e, htrap⟩ | ⟨c, -, -, -, ⟨-, rfl⟩ | ⟨f, -, rfl⟩⟩
  · exact State.raise_effect htrap
  · exact .access hcsr rfl
  · exact .access hcsr (s.writeCsr_mode c _)

theorem execMret_effect (h : execMret s = .next t) : s.Effect i t := by
  rcases execMret_cases h with ⟨hmode, rfl⟩ | ⟨-, -, htrap⟩
  · exact .ret _ _ (by rcases hmode with h | h <;> simp [h]) (s.trapReturned_returnTo _ _ _ _)
  · exact State.raise_effect htrap

theorem execSret_effect (h : execSret s = .next t) : s.Effect i t := by
  rcases execSret_cases h with ⟨hret, hmode⟩ | ⟨hret, hmode⟩ | ⟨e, htrap⟩
  · obtain rfl := Host.Outcome.next.inj hret
    exact .ret _ _ (by rcases hmode with h | h | h <;> simp [h]) (s.trapReturned_returnTo _ _ _ _)
  · obtain rfl := Host.Outcome.next.inj hret
    exact .ret _ _ (by simp [hmode]) (s.trapReturned_returnTo _ _ _ _)
  · exact State.raise_effect htrap

/-- Every instruction has one of the four effects. -/
theorem exec_effect (h : exec i s = .next t) : s.Effect i t := by
  cases i with
  | csrrw rd n rs1 => exact State.csrOp_effect (w := some fun _ => s.reg rs1) rfl h
  | csrrwi rd n uimm => exact State.csrOp_effect (w := some fun _ => csrImm uimm) rfl h
  | csrrs | csrrc | csrrsi | csrrci => exact State.csrOp_effect rfl h
  | jal | jalr => exact State.jump_effect h
  | beq | bne | blt | bge | bltu | bgeu => exact State.branch_effect h
  | cj | cjr | cjalr => exact State.compressed_effect h State.jump_effect
  | cjal =>
    change execCjal _ s = _ at h
    unfold execCjal at h
    split at h
    · exact State.compressed_effect h State.jump_effect
    · exact State.compressed_effect h (fun hrefused => nomatch hrefused)
  | cbeqz | cbnez => exact State.compressed_effect h State.branch_effect
  | cebreak => exact State.compressed_effect h State.raise_effect
  | mret => exact execMret_effect h
  | sret => exact execSret_effect h
  | ecall | ebreak => exact State.raise_effect h

end

/-- Settles O11: of the four effects only a trap changes the mode in U- and VU-mode. -/
theorem userModeLeavesOnlyByTrap : Obligations.UserModeLeavesOnlyByTrap := by
  intro i s t huser hexec hchanged
  cases exec_effect hexec with
  | trap e htrap =>
    refine ⟨⟨e, htrap⟩, ?_⟩
    rw [htrap.mode]
    rcases s.trapTarget_cases false e.cause with h | ⟨h, -⟩ | ⟨h, -⟩ <;> simp [h]
  | transfer k a rd htransfer => exact absurd htransfer.priv.mode hchanged
  | ret tm a hnot => exact absurd huser hnot
  | access _ hmode => exact absurd hmode hchanged

end Sys2Proof.Machine
end

section
/-! Taking a trap and returning with `mret` (spec/60_exceptions.md R351, R360, R361, R365;
spec/45_transfer_type_filtering.md R275): the handler and the cause, the mode entered, and what the environment's events
hand to a trap. -/

namespace Sys2Proof.Machine

/-! ### The mode a trap enters -/

section
variable (s : State) (isInt : Bool) (cause : BitVec 6)

theorem State.trapTarget_eq_M_iff :
    s.trapTarget isInt cause = .M ↔ s.mode = .M ∨ s.mode = .Debug ∨ s.cfg.hasS = false
      ∨ (if isInt then s.mideleg else s.medeleg).getLsbD cause.toNat = false := by
  simp only [State.trapTarget, Bool.not_eq_true']
  split_ifs with hM <;> simp_all

theorem State.trapTarget_eq_VS_iff :
    s.trapTarget isInt cause = .VS ↔ s.trapTarget isInt cause ≠ .M ∧ isV s.mode = true ∧ s.cfg.hasH = true
      ∧ (if isInt then s.hideleg else s.hedeleg).getLsbD cause.toNat = true := by
  simp only [State.trapTarget, Bool.not_eq_true']
  split_ifs with hM hVS <;> simp_all

end

/-- Settles O18: a trap that is not for M-mode goes on to VS-mode where V=1 and the second level delegates it. -/
theorem delegationChoosesTarget : Obligations.DelegationChoosesTarget := by
  intro s isInt cause m h
  refine ⟨?_, s.trapTarget_eq_M_iff isInt cause, ?_⟩
  · have hV : isV s.mode = true → s.mode ≠ .Debug := by rintro hV hD; simp [hD, isV] at hV
    rw [s.trapTarget_eq_VS_iff, ne_eq, s.trapTarget_eq_M_iff]
    simp only [not_or, Bool.not_eq_false]
    tauto
  · rcases s.trapTarget_cases isInt cause with h | ⟨h, -⟩ | ⟨h, -⟩ <;> simp [h]

/-! ### The values of `xcause` and the handler -/

theorem handlerAddr_eq (x : Xlen) (tvec : Word) (isInt : Bool) (cause : BitVec 6) :
    handlerAddr x tvec isInt cause = trunc x ((tvec &&& ~~~(3 : Word))
      + (if isInt = true ∧ tvec.getLsbD 0 = true then BitVec.ofNat 64 (4 * cause.toNat) else 0)) := by
  have hoffset : (4 : Word) * cause.setWidth 64 = BitVec.ofNat 64 (4 * cause.toNat) := by
    apply BitVec.eq_of_toNat_eq
    simp
  simp only [handlerAddr, hoffset, Bool.and_eq_true]
  split
  · rfl
  · exact congrArg (trunc x) (BitVec.add_zero _).symm

/-- The interrupt bit is above the code, so the two do not meet (log 47). -/
theorem causeValue_getLsbD (x : Xlen) (isInt : Bool) (cause : BitVec 6) {k : Nat} (hk : k < 64) :
    (causeValue x isInt cause).getLsbD k =
      if k = (if x = .x32 then 31 else 63) then isInt else decide (k < 6) && cause.getLsbD k := by
  have hcode : (cause.setWidth 64).getLsbD k = (decide (k < 6) && cause.getLsbD k) := by
    rw [BitVec.getLsbD_setWidth]
    by_cases h6 : k < 6
    · simp [h6, hk]
    · simp [h6, BitVec.getLsbD_of_ge cause k (Nat.not_lt.mp h6)]
  have htop : xbits x - 1 = if x = .x32 then 31 else 63 := by cases x <;> rfl
  have h32 := le_xbits x
  have h64 := xbits_le x
  rw [causeValue, BitVec.getLsbD_or, bitIf_getLsbD isInt (by omega), hcode, ← htop]
  by_cases h : k = xbits x - 1
  · have h6 : ¬k < 6 := by omega
    simp [← h, h6]
  · simp [h, Ne.symm h]

/-! ### Events of the environment -/

/-- A pending event other than `run` is the whole step (log 20). -/
theorem step_of_event {s : State} {es : List EnvEvent} {e : EnvEvent} (henv : s.env = e :: es) (hrun : e ≠ .run) :
    step s = envStep e { s with env := es } := by
  unfold step State.cycle
  rw [henv]
  cases e with
  | run => exact absurd rfl hrun
  | _ => rfl

theorem and_mxMask (cfg : Config) (v : Word) : v &&& mxMask cfg = trunc cfg.mxlen v := by
  rw [BitVec.and_comm, mxMask, ← trunc_and, BitVec.allOnes_and]

theorem State.takeTrap_traps (s : State) (isInt : Bool) (e : Exc) :
    ∃ t, s.takeTrap isInt e = .next t ∧ s.TrapTaken t isInt e :=
  ⟨_, s.takeTrap_next isInt e, s.trapTaken_trapInto isInt e⟩

/-! ### The `xtval` of a host exception -/

section
variable (s : State) (tval : Word)

theorem State.hostTval_breakpoint : s.hostTval 3 tval = if s.cfg.tvalPc then s.pc else 0 := rfl

theorem State.hostTval_instruction {cause : BitVec 6} (h : cause = 2 ∨ cause = 22) :
    s.hostTval cause tval = if s.cfg.tvalBits then s.fetchBits.getD (trunc s.cfg.mxlen tval) else 0 := by
  rcases h with rfl | rfl <;> rfl

theorem State.hostTval_ecall {cause : BitVec 6} (h : cause = 8 ∨ cause = 9 ∨ cause = 10 ∨ cause = 11) :
    s.hostTval cause tval = 0 := by
  rcases h with rfl | rfl | rfl | rfl <;> rfl

theorem State.hostTval_other {cause : BitVec 6} (h : cause.toNat ∉ [2, 3, 8, 9, 10, 11, 22]) :
    s.hostTval cause tval = trunc s.cfg.mxlen tval := by
  simp only [List.mem_cons, List.not_mem_nil, or_false, not_or] at h
  obtain ⟨h2, h3, h8, h9, h10, h11, h22⟩ := h
  have hbreak : cause ≠ breakpointCause := by rintro rfl; exact h3 rfl
  have hinstr : ¬(cause = 2 ∨ cause = 22) := by rintro (rfl | rfl) <;> contradiction
  have hecall : ¬(8 ≤ cause.toNat ∧ cause.toNat ≤ 11) := by omega
  rw [State.hostTval, if_neg hbreak, if_neg hinstr, if_neg hecall]

theorem State.fetchBits_of_split {bytes rest : List Byte} {enc : Encoding} (hbytes : s.fetchBytes = some bytes)
    (hsplit : splitEncoding bytes = .ok (enc, rest)) : s.fetchBits = some enc.bits := by
  simp only [State.fetchBits, hbytes, hsplit]

end

/-- Settles O17: every trap is `State.trapInto`, whichever event brings it, and `State.hostTval` is R351's value. -/
theorem trapEntrySavesAndEnters : Obligations.TrapEntrySavesAndEnters := by
  refine ⟨fun x tvec isInt cause => ⟨handlerAddr_eq x tvec isInt cause, fun k hk => causeValue_getLsbD x isInt cause hk⟩,
    fun s es bits henv => ?pending, fun s => ⟨s.takeTrap_traps, fun es cause henv => ?interrupt,
      fun es cause tval henv => ?exception⟩⟩
  case pending =>
    rw [step_of_event henv (by simp), ← and_mxMask]
    rfl
  case interrupt =>
    rw [step_of_event henv (by simp)]
    exact State.takeTrap_traps _ true ⟨cause, 0⟩
  case exception =>
    let u : State := { s with env := es }
    obtain ⟨t, hstep, htrap⟩ := u.takeTrap_traps false ⟨cause, u.hostTval cause tval⟩
    refine ⟨t, u.hostTval cause tval, (step_of_event henv (by simp)).trans hstep, htrap, ?_, ?_, ?_,
      u.hostTval_ecall tval, u.hostTval_other tval⟩
    · rintro rfl
      exact u.hostTval_breakpoint tval
    · intro hcause hbits
      rw [u.hostTval_instruction tval hcause]
      exact if_neg (Bool.eq_false_iff.mp hbits)
    · intro hcause hbits bytes enc rest hbytes hsplit
      rw [u.hostTval_instruction tval hcause, u.fetchBits_of_split hbytes hsplit]
      exact if_pos hbits

/-! ### `mret` -/

/-- The mode `mret` returns to, as a choice by MPP, MPV and the modes the hart has (R275, log 42). -/
theorem mretMode_eq (cfg : Config) (m : MStatus) :
    mretMode cfg m = if m.mpp = .M then Mode.M
      else if cfg.hasH = true ∧ m.mpv = true then (if m.mpp = .S then Mode.VS else Mode.VU)
      else if m.mpp = .U ∧ cfg.hasU = true then Mode.U
      else if cfg.hasS = true then Mode.S else Mode.M := by
  unfold mretMode landU landS
  cases m.mpp <;> simp

theorem execMret_next {s : State} (hmode : s.mode = .M ∨ s.mode = .Debug) :
    execMret s =
      .next (State.returnTo { s with mstatus := mretStatus s.cfg s.mstatus } (mretMode s.cfg s.mstatus)
        s.mtrap.epc) := by
  unfold execMret
  rcases hmode with h | h <;> rw [h]

/-- Settles O21: `mret` is the shared return after its change of `mstatus`; M-mode and Debug Mode have XLEN = MXLEN. -/
theorem mretReturns : Obligations.MretReturns := by
  intro s hmode
  have hx : s.x = s.cfg.mxlen := by rcases hmode with h | h <;> simp [State.x, h, xlenOf]
  refine ⟨_, _, execMret_next hmode, mretMode_eq s.cfg s.mstatus, ?_, rfl, rfl⟩
  rw [← hx]
  exact s.trapReturned_returnTo _ s.vsstatus _ _

end Sys2Proof.Machine
end

section
/-! What traps and trap returns record (spec/44_privilege_transitions.md R211, R212, R216, R219), and that Debug Mode
records nothing. -/

namespace Sys2Proof.Machine

/-! ### The mode tables -/

section
variable {cfg : Config} {c : Ctr} {isInt : Bool} {cause : BitVec 6} {sm tm : Mode}

theorem trapInhibited_eq (g : Word) (isInt : Bool) :
    (if isInt then ctlBit g .intrinh else ctlBit g .excinh) = g.getLsbD (if isInt then 34 else 33) := by
  cases isInt <;> rfl

/-- Outside Debug Mode a trap that no freeze, FROZEN or RASEMU stops is left to the mode table (R212). -/
theorem Ctr.onTrap_eq_recordTrap (hsm : sm ≠ .Debug) (htm : tm ≠ .Debug)
    (hfreeze : freezes (c.cfgOf cfg sm tm) isInt cause = false) (hfrozen : c.frozen = false)
    (hras : ctlBit (c.cfgOf cfg sm tm) .rasemu = false) (epc handler : Word) (misp : Bool) :
    c.onTrap cfg isInt cause sm tm epc handler misp = c.recordTrap cfg isInt sm tm epc handler misp := by
  simp only [Ctr.onTrap, hsm, htm, hfreeze, hfrozen, hras, or_self, Bool.false_eq_true, if_false]

end

/-- Settles O54: the model's mode table, by the enables of the two modes. -/
theorem trapsRecordByModeTable : Obligations.TrapsRecordByModeTable := by
  intro cfg c isInt cause sm tm epc handler misp hsm htm hfrozen hras hfreeze
  rw [Ctr.onTrap_eq_recordTrap hsm htm hfreeze hfrozen hras]
  simp only [Ctr.recordTrap, trapInhibited_eq]
  cases c.enabled sm <;> cases c.enabled tm <;> rfl

/-- Settles O55: the model asks the conditions one by one; that the source mode is enabled excludes Debug Mode. -/
theorem returnsRecordByModeTable : Obligations.ReturnsRecordByModeTable := by
  intro cfg c sm tm pc target misp
  have hsource : c.enabled sm = true → sm ≠ .Debug := by
    rintro henabled rfl
    exact absurd henabled Bool.false_ne_true
  have hrecorded : (tm ≠ .Debug ∧ c.enabled sm = true ∧ c.frozen = false ∧ (c.cfgOf cfg sm tm).getLsbD 10 = false
      ∧ (c.cfgOf cfg sm tm).getLsbD 35 = false) ↔
      ¬((sm = .Debug ∨ tm = .Debug) ∨ c.frozen = true ∨ (!c.enabled sm) = true
        ∨ ctlBit (c.cfgOf cfg sm tm) .rasemu = true ∨ ctlBit (c.cfgOf cfg sm tm) .tretinh = true) := by
    simp only [not_or, Bool.not_eq_true, Bool.not_eq_false']
    exact ⟨fun ⟨htm, henabled, hrest⟩ => ⟨⟨hsource henabled, htm⟩, hrest.1, henabled, hrest.2⟩,
      fun ⟨⟨_, htm⟩, hfrozen, henabled, hrest⟩ => ⟨htm, henabled, hfrozen, hrest⟩⟩
  rw [if_congr hrecorded rfl rfl, ite_not]
  simp only [Ctr.onTrapReturn, ← ite_or]
  rfl

/-! ### Debug Mode -/

/-- What R284 leaves of the validity of the count: all of it while the counter runs, or where there is none. -/
theorem Ctr.settle_eq (cfg : Config) (c : Ctr) (m : Mode) :
    c.settle cfg m = { c with ccOk := c.ccOk && (!cfg.hasCc || c.enabled m && !c.frozen) } := by
  unfold Ctr.settle Ctr.counting
  cases cfg.hasCc
  case false => simp
  case true => cases c.enabled m && !c.frozen <;> simp

/-- No cycle counts in Debug Mode. -/
theorem Ctr.settle_debug (cfg : Config) (c : Ctr) :
    c.settle cfg .Debug = { c with ccOk := !cfg.hasCc && c.ccOk } := by
  rw [c.settle_eq, show c.enabled .Debug = false from rfl, Bool.false_and, Bool.or_false, Bool.and_comm]

theorem Ctr.onRetire_debug (cfg : Config) (c : Ctr) (k : Kind) (pc target : Word) (misp : Bool) :
    c.onRetire cfg k .Debug pc target misp = c := rfl

section
variable {sm tm : Mode} (h : sm = .Debug ∨ tm = .Debug)
include h

theorem Ctr.onTrap_debug (cfg : Config) (c : Ctr) (isInt : Bool) (cause : BitVec 6) (epc handler : Word)
    (misp : Bool) : c.onTrap cfg isInt cause sm tm epc handler misp = c := if_pos h

theorem Ctr.onTrapReturn_debug (cfg : Config) (c : Ctr) (pc target : Word) (misp : Bool) :
    c.onTrapReturn cfg sm tm pc target misp = c := if_pos h

end

section
variable {s t : State} (hdebug : s.mode = .Debug)
include hdebug

/-- A trap out of Debug Mode leaves the recorder as it was, but for R284 (R219). -/
theorem State.TrapTaken.ctr_of_debug {isInt : Bool} {e : Exc} (h : s.TrapTaken t isInt e) :
    t.ctr = s.ctr.settle s.cfg t.mode := by
  rw [h.ctr, Ctr.onTrap_debug (.inl hdebug)]

/-- An instruction in Debug Mode that accesses no register leaves the recorder as it was, but for R284 (R219). -/
theorem State.Effect.ctr_of_debug {i : Instr} (h : s.Effect i t) (hi : i.isCsr = false ∨ t.mode ≠ .Debug) :
    t.ctr = s.ctr.settle s.cfg t.mode := by
  cases h with
  | trap e htrap => exact htrap.ctr_of_debug hdebug
  | transfer k a rd htransfer => rw [htransfer.ctr, htransfer.priv.mode, hdebug, Ctr.onRetire_debug]
  | ret tm a _ hret => rw [hret.ctr, hret.mode, Ctr.onTrapReturn_debug (.inl hdebug)]
  | access hcsr hmode =>
    rcases hi with hi | hleft
    · exact absurd hcsr (Bool.eq_false_iff.mp hi)
    · exact absurd (hmode.trans hdebug) hleft

end

/-- Settles O15: in Debug Mode the recorder's operations are the identity, so that of every event and effect only R284
is left. -/
theorem debugModeRecordsNothing : Obligations.DebugModeRecordsNothing := by
  refine ⟨fun s es henv => ?entry, fun s es m pc henv hdebug hm hhas => ?exit, Ctr.onRetire_debug,
    fun cfg c isInt cause sm tm epc handler misp h =>
      ⟨Ctr.onTrap_debug h cfg c isInt cause epc handler misp, Ctr.onTrapReturn_debug h cfg c epc handler misp⟩,
    fun s t i hdebug hi hexec => ?instruction, fun s es e hdebug henv he => ?event, fun cfg c hcc => ?tick⟩
  case entry =>
    rw [step_of_event henv (by simp), ← Ctr.settle_debug]
    rfl
  case exit =>
    rw [step_of_event henv (by simp), ← Ctr.settle_eq]
    exact if_pos ⟨hdebug, hm, hhas⟩
  case instruction =>
    rw [← Ctr.settle_eq]
    exact (exec_effect hexec).ctr_of_debug hdebug hi
  case event =>
    have htrap : ∃ t isInt e, step s = .next t ∧ State.TrapTaken { s with env := es } t isInt e := by
      obtain ⟨cause, rfl⟩ | ⟨cause, tval, rfl⟩ := he
      all_goals
        rw [step_of_event henv (by simp)]
        obtain ⟨t, hstep, htaken⟩ := State.takeTrap_traps _ _ _
        exact ⟨t, _, _, hstep, htaken⟩
    obtain ⟨t, isInt, e, hstep, htaken⟩ := htrap
    refine ⟨t, hstep, ?_⟩
    rw [← Ctr.settle_eq]
    exact State.TrapTaken.ctr_of_debug (s := { s with env := es }) hdebug htaken
  case tick =>
    have hstopped : c.onTick cfg .Debug = { c with ccOk := false } := by
      rw [Ctr.onTick, if_pos hcc]
      rfl
    rw [hstopped]
    exact ⟨rfl, rfl⟩

end Sys2Proof.Machine
end

section
/-! Cycle counting (spec/46_cycle_counting.md): the codes of `ctrdata.CC` as a rounding down to a level (R281, R282), and
the events that let the counter run or stop it (R283 to R285). -/

namespace Sys2Proof.Machine

/-! ### The levels

A code read as one number, CCE above the 12 bits of CCM, counts the representable values in their order (R281). -/

/-- The count that the `k`-th code stands for, CCE not bounded. -/
def ccLevel (k : Nat) : Nat := ccDecode (k / 4096) (k % 4096)

theorem ccDecode_zero (m : Nat) : ccDecode 0 m = m := rfl

theorem ccDecode_succ (e m : Nat) : ccDecode (e + 1) m = (4096 + m) * 2 ^ e := Nat.shiftLeft_eq ..

theorem ccLevel_pack (e : Nat) {m : Nat} (hm : m < 4096) : ccLevel (4096 * e + m) = ccDecode e m := by
  rw [ccLevel, Nat.mul_add_div (by decide), Nat.div_eq_of_lt hm, Nat.add_zero, Nat.mul_add_mod, Nat.mod_eq_of_lt hm]

/-- The code after the last one of an exponent is the first one of the next exponent, and stands for the next
multiple too. -/
theorem ccDecode_carry (e : Nat) : ccDecode (e + 1) 0 = ccDecode e 4095 + 2 ^ (e - 1) := by
  cases e with
  | zero => rfl
  | succ e =>
    rw [ccDecode_succ, ccDecode_succ, Nat.add_sub_cancel, Nat.pow_succ]
    omega

theorem ccDecode_next (e m : Nat) : ccDecode e (m + 1) = ccDecode e m + 2 ^ (e - 1) := by
  cases e with
  | zero => rfl
  | succ e => rw [ccDecode_succ, ccDecode_succ, ← Nat.add_assoc, Nat.succ_mul, Nat.add_sub_cancel]

/-- Two neighbouring codes stand for counts that are the granularity of the lower one apart (R281). -/
theorem ccLevel_succ (k : Nat) : ccLevel (k + 1) = ccLevel k + 2 ^ (k / 4096 - 1) := by
  have hlt : k % 4096 < 4096 := Nat.mod_lt k (by decide)
  rcases Nat.lt_or_ge (k % 4096 + 1) 4096 with hnext | hcarry
  · have hk : k + 1 = 4096 * (k / 4096) + (k % 4096 + 1) := by omega
    rw [hk, ccLevel_pack _ hnext, ccDecode_next, ccLevel]
  · have hk : k + 1 = 4096 * (k / 4096 + 1) + 0 := by omega
    have hlast : k % 4096 = 4095 := by omega
    rw [hk, ccLevel_pack _ (by decide), ccDecode_carry, ccLevel, hlast]

theorem ccLevel_strictMono : StrictMono ccLevel :=
  strictMono_nat_of_lt_succ fun k => by
    rw [ccLevel_succ]
    exact Nat.lt_add_of_pos_right (Nat.two_pow_pos _)

/-! ### The code of a count -/

/-- The code of a count before saturation, as one number. -/
def ccIndex (n : Nat) : Nat := 4096 * (ccSplit n).1 + (ccSplit n).2

theorem ccSplit_of_lt {n : Nat} (h : n < 4096) : ccSplit n = (0, n) := if_pos h

/-- From 4096 on, the exponent brings the count between 2^12 and 2^13, and the mantissa is what is above 2^12. -/
theorem ccSplit_of_ge {n : Nat} (h : 4096 ≤ n) :
    ∃ e m, ccSplit n = (e + 1, m) ∧ m < 4096 ∧ n / 2 ^ e = 4096 + m := by
  have hn : n ≠ 0 := by omega
  have hlog : 12 ≤ n.log2 := (Nat.le_log2 hn).mpr h
  obtain ⟨e, he⟩ := Nat.exists_eq_add_of_le hlog
  have hlow : 4096 ≤ n / 2 ^ e := by
    rw [Nat.le_div_iff_mul_le (Nat.two_pow_pos e), show 4096 = 2 ^ 12 from rfl, ← Nat.pow_add, ← he]
    exact Nat.log2_self_le hn
  have hhigh : n / 2 ^ e < 8192 := by
    rw [Nat.div_lt_iff_lt_mul (Nat.two_pow_pos e), show 8192 = 2 ^ 13 from rfl, ← Nat.pow_add,
      show 13 + e = n.log2 + 1 by omega]
    exact Nat.lt_log2_self
  refine ⟨e, n / 2 ^ e % 4096, ?_, Nat.mod_lt _ (by decide), by omega⟩
  rw [ccSplit, if_neg (Nat.not_lt.mpr h), he, Nat.shiftRight_eq_div_pow, Nat.add_sub_cancel_left,
    show 12 + e - 11 = e + 1 by omega]

theorem ccSplit_snd_lt (n : Nat) : (ccSplit n).2 < 4096 := by
  rcases Nat.lt_or_ge n 4096 with h | h
  · rwa [ccSplit_of_lt h]
  · obtain ⟨e, m, hsplit, hm, -⟩ := ccSplit_of_ge h
    rwa [hsplit]

theorem ccIndex_div (n : Nat) : ccIndex n / 4096 = (ccSplit n).1 := by
  have := ccSplit_snd_lt n
  unfold ccIndex
  omega

theorem ccLevel_ccIndex (n : Nat) : ccLevel (ccIndex n) = ccDecode (ccSplit n).1 (ccSplit n).2 :=
  ccLevel_pack _ (ccSplit_snd_lt n)

/-- Rounding down (R282): the code of a count is the last one whose level the count reaches. -/
theorem ccLevel_le_iff {k n : Nat} : ccLevel k ≤ n ↔ k ≤ ccIndex n := by
  have hbracket : ccLevel (ccIndex n) ≤ n ∧ n < ccLevel (ccIndex n + 1) := by
    rw [ccLevel_succ, ccIndex_div, ccLevel_ccIndex]
    rcases Nat.lt_or_ge n 4096 with h | h
    · rw [ccSplit_of_lt h]
      exact ⟨Nat.le_refl n, Nat.lt_succ_self n⟩
    · obtain ⟨e, m, hsplit, -, hdiv⟩ := ccSplit_of_ge h
      rw [hsplit, ccDecode_succ, ← hdiv]
      exact ⟨Nat.div_mul_le_self n _, Nat.lt_div_mul_add (Nat.two_pow_pos e)⟩
  constructor
  · intro hk
    exact Nat.le_of_lt_succ (ccLevel_strictMono.lt_iff_lt.mp (hk.trans_lt hbracket.2))
  · intro hk
    exact (ccLevel_strictMono.monotone hk).trans hbracket.1

/-! ### The 16 bits of CC -/

/-- The code of all ones in the implemented bits, as one number. -/
def ccTop (cfg : Config) : Nat := 4096 * (2 ^ cfg.cceBits.val - 1) + 4095

theorem emax_lt (cfg : Config) : 2 ^ cfg.cceBits.val - 1 < 16 := by
  have h : 2 ^ cfg.cceBits.val ≤ 2 ^ 4 := Nat.pow_le_pow_right (by decide) (Nat.le_of_lt_succ cfg.cceBits.isLt)
  omega

theorem ccLevel_ccTop (cfg : Config) : ccLevel (ccTop cfg) = ccDecode (ccFull cfg).1 (ccFull cfg).2 :=
  ccLevel_pack _ (by decide)

theorem ccParts_eq (code : BitVec 16) : ccParts code = (code.toNat / 4096, code.toNat % 4096) := by
  have := code.isLt
  have hcce : (code.extractLsb' 12 4).toNat = code.toNat / 4096 := by
    rw [BitVec.extractLsb'_toNat, Nat.shiftRight_eq_div_pow]
    omega
  rw [ccParts, hcce, BitVec.extractLsb'_toNat]
  rfl

theorem ccValue_eq (code : BitVec 16) : ccValue code = ccLevel code.toNat := by
  rw [ccValue, ccParts_eq, ccLevel]

theorem ccParts_of_toNat_eq_ccTop {cfg : Config} {code : BitVec 16} (h : code.toNat = ccTop cfg) :
    ccParts code = ccFull cfg := by
  rw [ccParts_eq, h, ccTop, ccFull]
  ext <;> dsimp only <;> omega

theorem packed_toNat {e m : Nat} (he : e < 16) (hm : m < 4096) :
    (BitVec.ofNat 16 (e <<< 12 ||| m)).toNat = 4096 * e + m := by
  rw [← Nat.shiftLeft_add_eq_or_of_lt hm, Nat.shiftLeft_eq, Nat.mul_comm e, BitVec.toNat_ofNat]
  exact Nat.mod_eq_of_lt (by omega)

/-- Saturation (R282): the code is cut at the code of all ones. -/
theorem ccEncode_toNat (cfg : Config) (n : Nat) : (ccEncode cfg n).toNat = min (ccIndex n) (ccTop cfg) := by
  have hm := ccSplit_snd_lt n
  have hemax := emax_lt cfg
  unfold ccEncode
  split
  case isTrue hsaturated =>
    rw [packed_toNat hemax (by decide), Nat.min_eq_right (by unfold ccIndex ccTop; omega), ccTop]
  case isFalse hfits =>
    rw [packed_toNat (by omega) hm, Nat.min_eq_left (by unfold ccIndex ccTop; omega), ccIndex]

/-- Settles O59: a code stands for a level, and of those up to the code of all ones the count's code is the last whose
level the count reaches. -/
theorem cycleCodeRoundsDown : Obligations.CycleCodeRoundsDown := by
  intro cfg n
  simp only [ccValue_eq]
  refine ⟨?below, ?within, fun hfull => ?saturates, fun m hnm => ?monotone⟩
  case below =>
    rw [ccLevel_le_iff, ccEncode_toNat]
    exact Nat.min_le_left _ _
  case within =>
    rcases Nat.le_total (ccTop cfg) (ccIndex n) with htop | hfits
    · exact .inl (ccParts_of_toNat_eq_ccTop ((ccEncode_toNat cfg n).trans (Nat.min_eq_right htop)))
    · right
      rw [ccParts_eq, ccEncode_toNat, Nat.min_eq_left hfits, ← ccLevel_succ, ← Nat.not_le, ccLevel_le_iff]
      exact Nat.not_succ_le_self _
  case saturates =>
    rw [← ccLevel_ccTop, ccLevel_le_iff] at hfull
    exact ccParts_of_toNat_eq_ccTop ((ccEncode_toNat cfg n).trans (Nat.min_eq_right hfull))
  case monotone =>
    have hindex : ccIndex n ≤ ccIndex m := ccLevel_le_iff.mp ((ccLevel_le_iff.mpr (Nat.le_refl _)).trans hnm)
    apply ccLevel_strictMono.monotone
    rw [ccEncode_toNat, ccEncode_toNat]
    exact min_le_min_right _ hindex

/-! ### The running counter -/

theorem Ctr.counting_iff (c : Ctr) (m : Mode) :
    c.counting m = true ↔ m ≠ .Debug ∧ c.enabled m = true ∧ c.frozen = false := by
  have hdebug : c.enabled m = true → m ≠ .Debug := by
    rintro henabled rfl
    exact absurd henabled Bool.false_ne_true
  rw [Ctr.counting, Bool.and_eq_true, Bool.not_eq_true', iff_and_self]
  exact fun h => hdebug h.1

theorem Ctr.onTick_eq (cfg : Config) (c : Ctr) (m : Mode) :
    c.onTick cfg m =
      if cfg.hasCc = false then c
      else if m ≠ .Debug ∧ c.enabled m = true ∧ c.frozen = false then { c with ccCount := c.ccCount + 1 }
      else { c with ccOk := false } := by
  simp only [← c.counting_iff, Ctr.onTick]
  cases cfg.hasCc <;> rfl

theorem Ctr.onCounterStop_eq (cfg : Config) (c : Ctr) :
    c.onCounterStop cfg = { c with ccOk := !cfg.hasCc && c.ccOk } := by
  rw [Ctr.onCounterStop]
  cases cfg.hasCc <;> rfl

/-- Settles O12: the tick is the whole step, and the counter counts in it as R280 says. -/
theorem tickCountsCycles : Obligations.TickCountsCycles := by
  intro s es henv
  rw [step_of_event henv (by simp), ← Ctr.onTick_eq]
  rfl

/-- Settles O13: the stop is the whole step, and clears the validity where there is a counter. -/
theorem counterStopClearsValidity : Obligations.CounterStopClearsValidity := by
  intro s es henv
  rw [step_of_event henv (by simp), ← Ctr.onCounterStop_eq]
  rfl

/-- Settles O14: R284 keeps the validity exactly while the counter runs. -/
theorem stoppedCounterIsInvalid : Obligations.StoppedCounterIsInvalid := by
  intro cfg c m hcc
  rw [c.settle_eq, hcc]
  refine ⟨fun hstopped => ?stopped, fun henabled hfrozen => ?runs⟩
  case stopped =>
    have hcounting : (c.enabled m && !c.frozen) = false := by
      rcases hstopped with h | h
      · rw [h, Bool.false_and]
      · rw [h, Bool.not_true, Bool.and_false]
    rw [hcounting, Bool.not_true, Bool.or_false, Bool.and_false]
  case runs =>
    have hcounting : (c.enabled m && !c.frozen) = true := by rw [henabled, hfrozen, Bool.not_false, Bool.and_true]
    rw [hcounting, Bool.or_true, Bool.and_true]

end Sys2Proof.Machine
end

section
/-! RAS emulation (spec/47_ras_emulation.md R300 to R306): the pop as a rotation of the ring, the swap as one write of
the array, and the event that chooses between them. -/

namespace Sys2Proof.Machine

section
variable (cfg : Config) (c : Ctr)

/-! ### The slots of the logical entries -/

/-- Two logical entries below the depth never share a slot (R151). -/
theorem Ctr.phys_inj {i j : Nat} (hi : i < c.depth) (hj : j < c.depth) (h : c.phys i = c.phys j) : i = j := by
  have hwp := c.wp_lt
  have hval := congrArg Fin.val h
  rw [c.phys_val_of_lt hi, c.phys_val_of_lt hj] at hval
  split_ifs at hval <;> omega

/-- The write pointer one back is the slot of logical entry 0, and from 0 on the top of the ring. -/
theorem Ctr.phys_zero_val : (c.phys 0).val = if c.wp.val = 0 then c.depth - 1 else c.wp.val - 1 := by
  rw [c.phys_val_of_lt c.depth_pos]
  split_ifs <;> omega

/-! ### The hidden counter under a pop -/

/-- A field of a field is a field of the word. -/
theorem extract_extract {w start len lo n : Nat} (v : BitVec w) (h : start + len ≤ n) :
    (v.extractLsb' lo n).extractLsb' start len = v.extractLsb' (lo + start) len := by
  apply BitVec.eq_of_getLsbD_eq
  intro k hk
  have hin : start + k < n := by omega
  simp only [BitVec.getLsbD_extractLsb', hin, decide_true, Bool.true_and, Nat.add_assoc]

/-- The code of CC is its exponent above its mantissa (R54). -/
theorem ccValue_extract (data : Word) :
    ccValue (data.extractLsb' 16 16)
      = ccDecode (data.extractLsb' 28 4).toNat (data.extractLsb' 16 12).toNat := by
  have hcce : (data.extractLsb' 16 16).extractLsb' 12 4 = data.extractLsb' 28 4 :=
    extract_extract data (by decide)
  have hccm : (data.extractLsb' 16 16).extractLsb' 0 12 = data.extractLsb' 16 12 :=
    extract_extract data (by decide)
  rw [ccValue, ccParts, hcce, hccm]

/-- With `accumulate` the popped count is added, and the sum is valid only if both counts are (R306). -/
theorem Ctr.rasCcOnPop_accumulate (hcc : cfg.hasCc = true) (hmode : cfg.rasCc = .accumulate) (i : Nat) :
    c.rasCcOnPop cfg (c.phys i) = { c with
      ccCount := c.ccCount + ccValue ((c.entry i).data.extractLsb' 16 16)
      ccOk := c.ccOk && (c.entry i).data.getLsbD 15 && (c.entry i).valid } := by
  rw [ccValue_extract, Ctr.rasCcOnPop, hcc, hmode]
  rfl

/-- Without a counter, or with CCV 0 in its place, a pop leaves the counter alone (R306). -/
theorem Ctr.rasCcOnPop_kept (h : cfg.hasCc = false ∨ cfg.rasCc = .ccv0) (p : Fin 256) : c.rasCcOnPop cfg p = c := by
  rcases h with hcc | hmode
  · rw [Ctr.rasCcOnPop, hcc]
    rfl
  · rw [Ctr.rasCcOnPop, hmode, show (RasCc.ccv0 == .accumulate) = false from rfl, Bool.and_false]
    rfl

/-! ### A pop -/

@[simp] theorem Ctr.rasPop_depth : (c.rasPop cfg).depth = c.depth := Ctr.depth_congr (c.rasPop_mctl cfg)

theorem Ctr.rasPop_wrptr_toNat : (c.rasPop cfg).wrptr.toNat = (c.phys 0).val := by
  rw [c.rasPop_wrptr cfg, BitVec.toNat_ofNat]
  exact Nat.mod_eq_of_lt (c.phys 0).isLt

theorem Ctr.rasPop_wp_val : (c.rasPop cfg).wp.val = (c.phys 0).val := by
  rw [Ctr.wp_val, c.rasPop_wrptr_toNat, c.rasPop_depth]
  exact Nat.mod_eq_of_lt (c.phys_lt 0)

/-- The slots of the older entries are named one lower. -/
theorem Ctr.rasPop_phys {i : Nat} (hi : i + 1 < c.depth) : (c.rasPop cfg).phys i = c.phys (i + 1) := by
  have hwp := c.wp_lt
  apply Fin.ext
  rw [Ctr.phys_val_of_lt _ (by rw [c.rasPop_depth]; omega), c.rasPop_wp_val, c.rasPop_depth, c.phys_zero_val,
    c.phys_val_of_lt hi]
  split_ifs <;> omega

/-- The slot popped becomes the one of the oldest entry. -/
theorem Ctr.rasPop_phys_last : (c.rasPop cfg).phys (c.depth - 1) = c.phys 0 := by
  have hpos := c.depth_pos
  have hlt := c.phys_lt 0
  apply Fin.ext
  rw [Ctr.phys_val_of_lt _ (by rw [c.rasPop_depth]; omega), c.rasPop_wp_val, c.rasPop_depth]
  split_ifs <;> omega

theorem Ctr.rasPop_get_self : (c.rasPop cfg).arr.get (c.phys 0) = (c.entry 0).invalidate := by
  rw [c.rasPop_arr cfg]
  exact Vector.getElem_set_self _

theorem Ctr.rasPop_get_other {p : Fin 256} (hp : p ≠ c.phys 0) : (c.rasPop cfg).arr.get p = c.arr.get p := by
  rw [c.rasPop_arr cfg]
  exact Vector.getElem_set_ne _ _ fun he => hp (Fin.ext he.symm)

theorem Ctr.rasPop_entry {i : Nat} (hi : i + 1 < c.depth) : (c.rasPop cfg).entry i = c.entry (i + 1) := by
  have hother : c.phys (i + 1) ≠ c.phys 0 := fun he => Nat.succ_ne_zero i (c.phys_inj hi c.depth_pos he)
  rw [Ctr.entry, c.rasPop_phys cfg hi, c.rasPop_get_other cfg hother, Ctr.entry]

theorem Ctr.rasPop_entry_last : (c.rasPop cfg).entry (c.depth - 1) = (c.entry 0).invalidate := by
  rw [Ctr.entry, c.rasPop_phys_last, c.rasPop_get_self]

/-! ### A swap -/

/-- The record a swap writes: its count is taken after the accumulation (R303). -/
def Ctr.swapRecord (s t : BitVec 63) (misp : Bool) : Entry :=
  (c.rasCcOnPop cfg (c.phys 0)).makeRecord cfg true 0b1100 s t misp

/-- Every record is made valid (R193). -/
theorem Ctr.makeRecord_valid (ras : Bool) (type : BitVec 4) (s t : BitVec 63) (misp : Bool) :
    (c.makeRecord cfg ras type s t misp).valid = true := by
  change (s ++ 1#1).getLsbD 0 = true
  rw [BitVec.getLsbD_append]
  rfl

section
variable (s t : BitVec 63) (misp : Bool)

theorem Ctr.rasSwap_arr : (c.rasSwap cfg s t misp).arr = c.arr.set (c.phys 0) (c.swapRecord cfg s t misp) := rfl

/-- The pointer and the depth are kept, so every logical entry keeps its slot. -/
theorem Ctr.rasSwap_phys (i : Nat) : (c.rasSwap cfg s t misp).phys i = c.phys i := rfl

theorem Ctr.rasSwap_entry_zero : (c.rasSwap cfg s t misp).entry 0 = c.swapRecord cfg s t misp := by
  rw [Ctr.entry, c.rasSwap_phys, c.rasSwap_arr]
  exact Vector.getElem_set_self _

theorem Ctr.rasSwap_get_other {p : Fin 256} (hp : p ≠ c.phys 0) :
    (c.rasSwap cfg s t misp).arr.get p = c.arr.get p := by
  rw [c.rasSwap_arr]
  exact Vector.getElem_set_ne _ _ fun he => hp (Fin.ext he.symm)

theorem Ctr.rasSwap_entry_other {i : Nat} (hpos : 0 < i) (hi : i < c.depth) :
    (c.rasSwap cfg s t misp).entry i = c.entry i := by
  have hother : c.phys i ≠ c.phys 0 := fun he => hpos.ne' (c.phys_inj hi c.depth_pos he)
  rw [Ctr.entry, c.rasSwap_phys, c.rasSwap_get_other cfg s t misp hother, Ctr.entry]

theorem Ctr.rasSwap_statusWord : (c.rasSwap cfg s t misp).statusWord = c.statusWord := by
  rw [Ctr.statusWord, c.rasSwap_frozen, c.rasSwap_wrap, c.rasSwap_wrptr, Ctr.statusWord]

end

/-! ### The choice by kind -/

/-- In RAS emulation calls push, returns pop, swaps overwrite, and nothing else is recorded (R301). -/
theorem Ctr.rasStep_eq (k : Kind) (s t : BitVec 63) (misp : Bool) :
    c.rasStep cfg k s t misp =
      if k = .indcall then c.push cfg (c.makeRecord cfg true 0b1000 s t misp)
      else if k = .dircall then c.push cfg (c.makeRecord cfg true 0b1001 s t misp)
      else if k = .ret then c.rasPop cfg
      else if k = .corswap then c.rasSwap cfg s t misp
      else c := by
  cases k <;> rfl

section
variable {cfg : Config} {c : Ctr}

/-- In RAS emulation an enabled transfer is left to `Ctr.rasStep`, the filters unread (R301). -/
theorem Ctr.onRetire_of_rasemu {m : Mode} (henabled : c.enabled m = true) (hfrozen : c.frozen = false)
    (hras : ctlBit (c.ctl m) .rasemu = true) (k : Kind) (pc target : Word) (misp : Bool) :
    c.onRetire cfg k m pc target misp =
      c.rasStep cfg k (pcField cfg (xlenOf cfg m) pc) (pcField cfg (xlenOf cfg m) target) misp := by
  have hdebug : m ≠ .Debug := by
    rintro rfl
    exact absurd henabled Bool.false_ne_true
  simp only [Ctr.onRetire, hdebug, henabled, hfrozen, hras, Bool.not_true, Bool.false_eq_true, if_false, if_true]

variable {sm tm : Mode} (hras : ctlBit (c.cfgOf cfg sm tm) .rasemu = true) (pc target : Word) (misp : Bool)
include hras

/-- Trap returns are among the types RAS emulation inhibits (R304, D38). -/
theorem Ctr.onTrapReturn_of_rasemu : c.onTrapReturn cfg sm tm pc target misp = c := by
  simp only [Ctr.onTrapReturn, hras, if_true, ite_self]

/-- Traps are among the types RAS emulation inhibits; a freeze comes before that (R212, R304, D38). -/
theorem Ctr.onTrap_of_rasemu {isInt : Bool} {cause : BitVec 6}
    (hfreeze : freezes (c.cfgOf cfg sm tm) isInt cause = false) :
    c.onTrap cfg isInt cause sm tm pc target misp = c := by
  simp only [Ctr.onTrap, hfreeze, hras, Bool.false_eq_true, if_false, if_true, ite_self]

end

end

/-! ### The obligations -/

/-- Settles O49: the popped slot is the new write pointer, so the other slots are named one lower and it comes last. -/
theorem popRotatesEntriesUp : Obligations.PopRotatesEntriesUp := by
  intro cfg c
  refine ⟨fun i hi => c.rasPop_entry cfg hi, c.rasPop_entry_last cfg, ?wrptr, ?wrap,
    fun p hp => c.rasPop_get_other cfg hp, c.rasPop_mctl cfg, c.rasPop_vsctl cfg, c.rasPop_frozen cfg,
    fun hcc hmode => ?accumulate, fun hkept => ?kept⟩
  case wrptr =>
    rw [c.rasPop_wrptr_toNat, logicalEntryIsPhysical c 0 c.depth_pos, Int.natCast_zero, Int.sub_zero]
  case wrap =>
    rw [c.rasPop_wrap, c.wp_val]
    congr 1
    exact (decide_not ..).symm
  case accumulate =>
    rw [c.rasPop_ccCount, c.rasPop_ccOk, c.rasCcOnPop_accumulate cfg hcc hmode]
    exact ⟨rfl, rfl⟩
  case kept =>
    rw [c.rasPop_ccCount, c.rasPop_ccOk, c.rasCcOnPop_kept cfg hkept]
    exact ⟨rfl, rfl⟩

/-- Settles O50: a swap writes the slot of logical entry 0 and restarts the counter; the pointer stays. -/
theorem swapOverwritesEntryZero : Obligations.SwapOverwritesEntryZero := by
  intro cfg c pc target misp
  refine ⟨c.rasSwap_entry_zero cfg pc target misp, ?valid,
    fun i hpos hi => c.rasSwap_entry_other cfg pc target misp hpos hi,
    fun p hp => c.rasSwap_get_other cfg pc target misp hp, c.rasSwap_statusWord cfg pc target misp,
    c.rasSwap_mctl cfg pc target misp, c.rasSwap_vsctl cfg pc target misp, fun hcc => by simp [hcc],
    fun hcc => by simp [hcc]⟩
  case valid =>
    rw [c.rasSwap_entry_zero]
    exact Ctr.makeRecord_valid ..

/-- Settles O58: RASEMU hands an enabled transfer to `Ctr.rasStep` and stops every trap that does not freeze, and every
return. -/
theorem rasEmulationByKind : Obligations.RasEmulationByKind := by
  intro cfg c pc target misp
  refine ⟨fun m k henabled hfrozen hras => ?transfer, fun sm tm hras =>
    ⟨Ctr.onTrapReturn_of_rasemu hras pc target misp,
      fun isInt cause hfreeze => Ctr.onTrap_of_rasemu hras pc target misp hfreeze⟩⟩
  case transfer =>
    rw [Ctr.onRetire_of_rasemu henabled hfrozen hras, Ctr.rasStep_eq]

end Sys2Proof.Machine
end

section
/-! Freezing (spec/48_freeze.md R320 to R325): which traps set FROZEN, that a frozen recorder ignores every event of the
hart, and that only a CSR instruction can thaw or reconfigure the recorder. -/

namespace Sys2Proof.Machine

/-! ### The traps that freeze -/

/-- The two freezing traps, spelled by cause and opt-in bit: BPFRZ is bit 11, LCOFIFRZ bit 12 (R322, R323). -/
theorem freezes_iff (g : Word) (isInt : Bool) (cause : BitVec 6) :
    freezes g isInt cause = true ↔
      isInt = false ∧ cause = 3 ∧ g.getLsbD 11 = true ∨ isInt = true ∧ cause = 13 ∧ g.getLsbD 12 = true := by
  have hbp : ctlBit g .bpfrz = g.getLsbD 11 := rfl
  have hlcofi : ctlBit g .lcofifrz = g.getLsbD 12 := rfl
  cases isInt
  case false => simp [freezes, breakpointCause, hbp]
  case true => simp [freezes, lcofiCause, hlcofi]

/-- The mode table pushes or does nothing; neither touches FROZEN. -/
@[simp] theorem Ctr.recordTrap_frozen (cfg : Config) (c : Ctr) (isInt : Bool) (sm tm : Mode) (epc handler : Word)
    (misp : Bool) : (c.recordTrap cfg isInt sm tm epc handler misp).frozen = c.frozen := by
  simp only [Ctr.recordTrap, apply_ite Ctr.frozen, Ctr.push_frozen, ite_self]

section
variable {cfg : Config} {c : Ctr} {isInt : Bool} {cause : BitVec 6} {sm tm : Mode}

/-- A freeze comes before FROZEN, RASEMU and the mode table (R325). -/
theorem Ctr.onTrap_of_freezes (hsm : sm ≠ .Debug) (htm : tm ≠ .Debug)
    (hfreeze : freezes (c.cfgOf cfg sm tm) isInt cause = true) (epc handler : Word) (misp : Bool) :
    c.onTrap cfg isInt cause sm tm epc handler misp = { c with frozen := true } := by
  simp only [Ctr.onTrap, hsm, htm, hfreeze, or_self, if_false, if_true]

/-- A trap that does not freeze keeps FROZEN, whether it is recorded or not. -/
theorem Ctr.onTrap_frozen_of_not_freezes (hfreeze : freezes (c.cfgOf cfg sm tm) isInt cause = false)
    (epc handler : Word) (misp : Bool) :
    (c.onTrap cfg isInt cause sm tm epc handler misp).frozen = c.frozen := by
  simp only [Ctr.onTrap, hfreeze, Bool.false_eq_true, if_false, apply_ite Ctr.frozen, Ctr.recordTrap_frozen, ite_self]

end

/-- Settles O56: `freezes_iff` ties the statement's condition to the model's, which alone decides over FROZEN. -/
theorem freezingTraps : Obligations.FreezingTraps := by
  intro cfg c isInt cause sm tm epc handler misp hsm htm
  rw [← freezes_iff]
  exact ⟨fun hfreeze => Ctr.onTrap_of_freezes hsm htm hfreeze epc handler misp,
    fun hnot => Ctr.onTrap_frozen_of_not_freezes (Bool.eq_false_iff.mpr hnot) epc handler misp⟩

/-! ### A frozen recorder -/

section
variable {c : Ctr} (hfrozen : c.frozen = true)
include hfrozen

theorem Ctr.onRetire_of_frozen (cfg : Config) (k : Kind) (m : Mode) (pc target : Word) (misp : Bool) :
    c.onRetire cfg k m pc target misp = c :=
  Ctr.onRetire_of_unqualified (.inr (.inl hfrozen)) pc target misp

/-- A freezing trap sets a bit that is set; every other trap stops at FROZEN (R320, R325). -/
theorem Ctr.onTrap_of_frozen (cfg : Config) (isInt : Bool) (cause : BitVec 6) (sm tm : Mode) (epc handler : Word)
    (misp : Bool) : c.onTrap cfg isInt cause sm tm epc handler misp = c := by
  have hset : { c with frozen := true } = c := by rw [← hfrozen]
  simp only [Ctr.onTrap, hset, hfrozen, if_true, ite_self]

theorem Ctr.onTrapReturn_of_frozen (cfg : Config) (sm tm : Mode) (pc target : Word) (misp : Bool) :
    c.onTrapReturn cfg sm tm pc target misp = c := by
  simp only [Ctr.onTrapReturn, hfrozen, if_true, ite_self]

theorem Ctr.counting_of_frozen (m : Mode) : c.counting m = false := by
  rw [Ctr.counting, hfrozen, Bool.not_true, Bool.and_false]

/-- A cycle that elapses while frozen costs the count its validity (R284, R320). -/
theorem Ctr.onTick_of_frozen {cfg : Config} (hcc : cfg.hasCc = true) (m : Mode) :
    c.onTick cfg m = { c with ccOk := false } := by
  simp only [Ctr.onTick, hcc, Ctr.counting_of_frozen hfrozen, Bool.false_eq_true, if_false, if_true]

theorem Ctr.settle_of_frozen {cfg : Config} (hcc : cfg.hasCc = true) (m : Mode) :
    c.settle cfg m = { c with ccOk := false } := by
  simp only [Ctr.settle, hcc, Ctr.counting_of_frozen hfrozen, Bool.not_false, Bool.and_self, if_true]

end

/-- Settles O57: each event of the hart stops at FROZEN, and no cycle counts. -/
theorem frozenRecorderIsStill : Obligations.FrozenRecorderIsStill := by
  intro cfg c hfrozen
  refine ⟨Ctr.onRetire_of_frozen hfrozen cfg, Ctr.onTrap_of_frozen hfrozen cfg,
    Ctr.onTrapReturn_of_frozen hfrozen cfg, fun m hcc => ?_⟩
  rw [Ctr.onTick_of_frozen hfrozen hcc, Ctr.settle_of_frozen hfrozen hcc]
  exact ⟨rfl, rfl, rfl⟩

/-! ### Instructions that access no register -/

section
variable {s t : State} {i : Instr} (hi : i.isCsr = false)
include hi

/-- A transfer, a trap and a return each leave both control registers alone. -/
theorem State.Effect.ctl_kept (h : s.Effect i t) : t.ctr.mctl = s.ctr.mctl ∧ t.ctr.vsctl = s.ctr.vsctl := by
  cases h with
  | trap e htrap =>
    rw [htrap.ctr, Ctr.settle_mctl, Ctr.settle_vsctl]
    exact Ctr.onTrap_mctl ..
  | transfer k a rd htransfer =>
    rw [htransfer.ctr, Ctr.settle_mctl, Ctr.settle_vsctl]
    exact Ctr.onRetire_mctl ..
  | ret tm a _ hret =>
    rw [hret.ctr, Ctr.settle_mctl, Ctr.settle_vsctl]
    exact Ctr.onTrapReturn_mctl ..
  | access hcsr _ => exact absurd hcsr (Bool.eq_false_iff.mp hi)

/-- On a frozen recorder only the end of the event acts, which touches the validity of the count alone (R284, R320). -/
theorem State.Effect.ctr_of_frozen (h : s.Effect i t) (hfrozen : s.ctr.frozen = true) :
    t.ctr = s.ctr.settle s.cfg t.mode := by
  cases h with
  | trap e htrap => rw [htrap.ctr, Ctr.onTrap_of_frozen hfrozen]
  | transfer k a rd htransfer => rw [htransfer.ctr, htransfer.priv.mode, Ctr.onRetire_of_frozen hfrozen]
  | ret tm a _ hret => rw [hret.ctr, hret.mode, Ctr.onTrapReturn_of_frozen hfrozen]
  | access hcsr _ => exact absurd hcsr (Bool.eq_false_iff.mp hi)

end

/-- Settles O10: the effects left to an instruction that is no CSR instruction keep the control registers, and a frozen
recorder sees no more than R284. -/
theorem onlyCsrInstructionsReconfigure : Obligations.OnlyCsrInstructionsReconfigure := by
  intro i s t hi hexec
  have heffect : s.Effect i t := exec_effect hexec
  obtain ⟨hmctl, hvsctl⟩ := heffect.ctl_kept hi
  refine ⟨hmctl, hvsctl, fun hfrozen => ?_⟩
  rw [heffect.ctr_of_frozen hi hfrozen]
  exact ⟨(Ctr.settle_frozen ..).trans hfrozen, Ctr.settle_arr .., Ctr.settle_wrptr .., Ctr.settle_wrap ..⟩

end Sys2Proof.Machine
end

section
/-! Depth discovery (spec/49_discovery.md R340): what a written value of `DEPTH` stores. -/

/-! ### The ends of the order of R32 -/

namespace Sys2Proof

theorem DepthCode.rank_le_zero_iff (d : DepthCode) : d.rank ≤ 0 ↔ d = .d16 := by cases d <;> decide

theorem DepthCode.four_le_rank_iff (d : DepthCode) : 4 ≤ d.rank ↔ d = .d256 := by cases d <;> decide

end Sys2Proof

namespace Sys2Proof.Machine

theorem depthBits_eq_zeros_iff (d : DepthCode) : depthBits d = 0b0000 ↔ d = .d16 := by cases d <;> decide

theorem depthBits_eq_ones_iff (d : DepthCode) : depthBits d = 0b1111 ↔ d = .d256 := by cases d <;> decide

theorem depthOfBits_depthBits (d : DepthCode) : depthOfBits (depthBits d) = some d := by cases d <;> rfl

/-! ### Supported depths -/

theorem depthSupported_iff (cfg : Config) (d : DepthCode) :
    depthSupported cfg d = true ↔ cfg.depthMin.rank ≤ d.rank ∧ d.rank ≤ cfg.depthMax.rank := by
  simp [depthSupported]

section
variable {cfg : Config}

theorem depthSupported_depthMin (hrange : cfg.depthMin.rank ≤ cfg.depthMax.rank) :
    depthSupported cfg cfg.depthMin = true :=
  (depthSupported_iff ..).mpr ⟨le_rfl, hrange⟩

theorem depthSupported_depthMax (hrange : cfg.depthMin.rank ≤ cfg.depthMax.rank) :
    depthSupported cfg cfg.depthMax = true :=
  (depthSupported_iff ..).mpr ⟨hrange, le_rfl⟩

/-- Clamping to a range that is not empty lands in it. -/
theorem depthSupported_clampDepth (hrange : cfg.depthMin.rank ≤ cfg.depthMax.rank) (d : DepthCode) :
    depthSupported cfg (clampDepth cfg d) = true := by
  unfold clampDepth
  split
  case isTrue => exact depthSupported_depthMin hrange
  case isFalse hmin =>
    split
    case isTrue => exact depthSupported_depthMax hrange
    case isFalse hmax => exact (depthSupported_iff ..).mpr ⟨not_lt.mp hmin, not_lt.mp hmax⟩

/-! ### The stored depth -/

theorem legalizeDepth_zeros : legalizeDepth cfg 0b0000 = cfg.depthMin := rfl

theorem legalizeDepth_ones : legalizeDepth cfg 0b1111 = cfg.depthMax := rfl

/-- A supported encoding is stored as written. At the two ends of R32 the written value stores DEPTH_MIN or DEPTH_MAX,
which is the depth at that end where that depth is supported. -/
theorem legalizeDepth_depthBits {d : DepthCode} (hd : depthSupported cfg d = true) :
    legalizeDepth cfg (depthBits d) = d := by
  obtain ⟨hmin, hmax⟩ := (depthSupported_iff cfg d).mp hd
  by_cases hzeros : depthBits d = 0b0000
  case pos =>
    obtain rfl : d = .d16 := (depthBits_eq_zeros_iff d).mp hzeros
    exact legalizeDepth_zeros.trans ((DepthCode.rank_le_zero_iff _).mp hmin)
  case neg =>
    by_cases hones : depthBits d = 0b1111
    case pos =>
      obtain rfl : d = .d256 := (depthBits_eq_ones_iff d).mp hones
      exact legalizeDepth_ones.trans ((DepthCode.four_le_rank_iff _).mp hmax)
    case neg =>
      rw [legalizeDepth, if_neg hzeros, if_neg hones, depthOfBits_depthBits]
      exact if_pos hd

/-- Each branch of `legalizeDepth` answers an end of the range, a depth just found supported, or a clamped one. -/
theorem depthSupported_legalizeDepth (hrange : cfg.depthMin.rank ≤ cfg.depthMax.rank) (v : BitVec 4) :
    depthSupported cfg (legalizeDepth cfg v) = true := by
  fun_cases legalizeDepth cfg v
  case case1 => exact depthSupported_depthMin hrange
  case case2 => exact depthSupported_depthMax hrange
  case case3 hsupported => exact hsupported
  case case4 => exact depthSupported_clampDepth hrange _
  case case5 => exact depthSupported_clampDepth hrange _

end

/-- Settles O42: the two ends by the definition, a supported encoding by its place in the order of R32, and
what is stored by the branches of `legalizeDepth`. -/
theorem depthWritesAreLegalised : Obligations.DepthWritesAreLegalised := by
  intro cfg hrange
  exact ⟨legalizeDepth_zeros, legalizeDepth_ones, fun _ => legalizeDepth_depthBits, depthSupported_legalizeDepth hrange⟩

end Sys2Proof.Machine
end

section
/-! Encoding and decoding (spec/30_encoding.md R104 to R108): each format's fields are read back from the word it
assembles, and a word is the assembly of its fields; so decoder and encoder are inverse on well-formed instructions. -/

namespace Sys2Proof.Machine

/-! ### Words of fields -/

/-- The field above the lowest one. -/
theorem extract_append_middle {u v w : Nat} (hi : BitVec u) (mid : BitVec v) (lo : BitVec w) :
    (hi ++ mid ++ lo).extractLsb' w v = mid := by
  rw [BitVec.extractLsb'_append_eq_of_le (Nat.le_refl w), Nat.sub_self]
  exact BitVec.extractLsb'_append_eq_right

/-- A field above the lowest one is a field of what stands above that. -/
theorem extract_append_above {v w start len : Nat} (hi : BitVec v) (lo : BitVec w) :
    (hi ++ lo).extractLsb' (w + start) len = hi.extractLsb' start len := by
  rw [BitVec.extractLsb'_append_eq_of_le (Nat.le_add_right w start), Nat.add_sub_cancel_left]

/-- The I-type word of R106, which the CSR instructions and `jalr` share: immediate or register number, two register
fields around funct3, opcode. -/
def iTypeWord (imm : BitVec 12) (rs1 : BitVec 5) (funct3 : BitVec 3) (rd : Reg) (opcode : BitVec 7) : BitVec 32 :=
  imm ++ rs1 ++ funct3 ++ rd ++ opcode

section
variable (imm : BitVec 12) (rs1 : BitVec 5) (funct3 : BitVec 3) (rd : Reg) (opcode : BitVec 7)

theorem iTypeWord_opcode : (iTypeWord imm rs1 funct3 rd opcode).extractLsb' 0 7 = opcode :=
  BitVec.extractLsb'_append_eq_right

theorem iTypeWord_rd : (iTypeWord imm rs1 funct3 rd opcode).extractLsb' 7 5 = rd :=
  extract_append_middle ..

theorem iTypeWord_funct3 : (iTypeWord imm rs1 funct3 rd opcode).extractLsb' 12 3 = funct3 :=
  (extract_append_above (start := 5) ..).trans (extract_append_middle ..)

theorem iTypeWord_rs1 : (iTypeWord imm rs1 funct3 rd opcode).extractLsb' 15 5 = rs1 :=
  (extract_append_above (start := 8) ..).trans
    ((extract_append_above (start := 3) ..).trans (extract_append_middle ..))

theorem iTypeWord_imm : (iTypeWord imm rs1 funct3 rd opcode).extractLsb' 20 12 = imm := by
  refine (extract_append_above (start := 13) ..).trans ((extract_append_above (start := 8) ..).trans
    ((extract_append_above (start := 5) ..).trans ?_))
  exact BitVec.extractLsb'_append_eq_left

theorem iTypeWord_fields (w : BitVec 32) :
    iTypeWord (w.extractLsb' 20 12) (w.extractLsb' 15 5) (w.extractLsb' 12 3) (w.extractLsb' 7 5)
      (w.extractLsb' 0 7) = w := by
  unfold iTypeWord
  rw [BitVec.extractLsb'_append_extractLsb'_eq_extractLsb' (show 20 = 15 + 5 from rfl),
    BitVec.extractLsb'_append_extractLsb'_eq_extractLsb' (show 15 = 12 + 3 from rfl),
    BitVec.extractLsb'_append_extractLsb'_eq_extractLsb' (show 12 = 7 + 5 from rfl),
    BitVec.extractLsb'_append_extractLsb'_eq_extractLsb' (show 7 = 0 + 7 from rfl)]
  exact BitVec.extractLsb'_eq_self

end



/-! ### The formats, read back and assembled -/

section
variable (csr : CsrNum) (rs1 : BitVec 5) (funct3 : BitVec 3) (rd : Reg)

theorem encodeCsr_eq : encodeCsr csr rs1 funct3 rd = .word (iTypeWord csr rs1 funct3 rd 0b1110011#7) := rfl

theorem encodeInstr_jalr : encodeInstr (.jalr rd rs1 csr) = .word (iTypeWord csr rs1 0b000#3 rd 0b1100111#7) := rfl

end

theorem encodeCsr_of_fields {w : BitVec 32} {f : BitVec 3} (hop : w.extractLsb' 0 7 = 0b1110011#7)
    (hf : w.extractLsb' 12 3 = f) :
    encodeCsr (w.extractLsb' 20 12) (w.extractLsb' 15 5) f (w.extractLsb' 7 5) = .word w := by
  rw [encodeCsr_eq, ← hop, ← hf, iTypeWord_fields]

/-- What a B-type word is read back as (R106, R107). -/
theorem encodeBranch_fields (f : BitVec 3) (rs1 rs2 : Reg) {off : BitVec 13} (hoff : off.getLsbD 0 = false) :
    ∃ w, encodeBranch f rs1 rs2 off = .word w ∧ w.extractLsb' 0 7 = 0b1100011#7 ∧ w.extractLsb' 12 3 = f
      ∧ w.extractLsb' 15 5 = rs1 ∧ w.extractLsb' 20 5 = rs2 ∧ immB w = off := by
  refine ⟨_, rfl, BitVec.extractLsb'_append_eq_right, ?funct3, ?rs1, ?rs2, ?off⟩
  case off =>
    refine BitVec.eq_of_getLsbD_eq fun k hk => ?_
    simp only [immB, BitVec.getLsbD_append, BitVec.getLsbD_extractLsb']
    interval_cases k <;> simp_all
  all_goals
    refine BitVec.eq_of_getLsbD_eq fun k hk => ?_
    simp only [BitVec.getLsbD_append, BitVec.getLsbD_extractLsb']
    interval_cases k <;> simp

theorem encodeBranch_of_fields {w : BitVec 32} {f : BitVec 3} (hop : w.extractLsb' 0 7 = 0b1100011#7)
    (hf : w.extractLsb' 12 3 = f) :
    encodeBranch f (w.extractLsb' 15 5) (w.extractLsb' 20 5) (immB w) = .word w := by
  unfold encodeBranch
  rw [← hop, ← hf]
  refine congrArg Encoding.word (BitVec.eq_of_getLsbD_eq fun k hk => ?_)
  simp only [immB, BitVec.getLsbD_append, BitVec.getLsbD_extractLsb']
  interval_cases k <;> simp

theorem immB_bit0 (w : BitVec 32) : (immB w).getLsbD 0 = false := by
  rw [immB, BitVec.getLsbD_append]
  rfl

/-- What a J-type word is read back as (R106, R107). -/
theorem encodeInstr_jal_fields (rd : Reg) {off : BitVec 21} (hoff : off.getLsbD 0 = false) :
    ∃ w, encodeInstr (.jal rd off) = .word w ∧ w.extractLsb' 0 7 = 0b1101111#7 ∧ w.extractLsb' 7 5 = rd
      ∧ immJ w = off := by
  refine ⟨_, rfl, BitVec.extractLsb'_append_eq_right, extract_append_middle .., ?off⟩
  case off =>
    refine BitVec.eq_of_getLsbD_eq fun k hk => ?_
    simp only [immJ, BitVec.getLsbD_append, BitVec.getLsbD_extractLsb']
    interval_cases k <;> simp_all

theorem encodeInstr_jal_of_fields {w : BitVec 32} (hop : w.extractLsb' 0 7 = 0b1101111#7) :
    encodeInstr (.jal (w.extractLsb' 7 5) (immJ w)) = .word w := by
  unfold encodeInstr
  rw [← hop]
  refine congrArg Encoding.word (BitVec.eq_of_getLsbD_eq fun k hk => ?_)
  simp only [immJ, BitVec.getLsbD_append, BitVec.getLsbD_extractLsb']
  interval_cases k <;> simp

theorem immJ_bit0 (w : BitVec 32) : (immJ w).getLsbD 0 = false := by
  rw [immJ, BitVec.getLsbD_append]
  rfl

/-- What a CJ-type word is read back as (R107, R108). -/
theorem encodeCJ_fields (f : BitVec 3) {off : BitVec 12} (hoff : off.getLsbD 0 = false) :
    ∃ w, encodeCJ f off = .half w ∧ w.extractLsb' 0 2 = 0b01#2 ∧ w.extractLsb' 13 3 = f ∧ immCJ w = off := by
  refine ⟨_, rfl, BitVec.extractLsb'_append_eq_right, ?funct3, ?off⟩
  case funct3 =>
    refine BitVec.eq_of_getLsbD_eq fun k hk => ?_
    simp only [BitVec.getLsbD_append, BitVec.getLsbD_extractLsb']
    interval_cases k <;> simp
  case off =>
    refine BitVec.eq_of_getLsbD_eq fun k hk => ?_
    simp only [immCJ, BitVec.getLsbD_append, BitVec.getLsbD_extractLsb']
    interval_cases k <;> simp_all

theorem encodeCJ_of_fields {w : BitVec 16} {f : BitVec 3} (hop : w.extractLsb' 0 2 = 0b01#2)
    (hf : w.extractLsb' 13 3 = f) : encodeCJ f (immCJ w) = .half w := by
  unfold encodeCJ
  rw [← hop, ← hf]
  refine congrArg Encoding.half (BitVec.eq_of_getLsbD_eq fun k hk => ?_)
  simp only [immCJ, BitVec.getLsbD_append, BitVec.getLsbD_extractLsb']
  interval_cases k <;> simp

theorem immCJ_bit0 (w : BitVec 16) : (immCJ w).getLsbD 0 = false := by
  rw [immCJ, BitVec.getLsbD_append]
  rfl

/-- A register that CB-type names is its low 3 bits under the bits 01 (R107). -/
theorem regCB_high (w : BitVec 16) : (regCB w).extractLsb' 3 2 = 1 := BitVec.extractLsb'_append_eq_left

/-- What a CB-type word is read back as (R107, R108). -/
theorem encodeCB_fields (f : BitVec 3) {rs1 : Reg} {off : BitVec 9} (hrs1 : rs1.extractLsb' 3 2 = 1)
    (hoff : off.getLsbD 0 = false) :
    ∃ w, encodeCB f rs1 off = .half w ∧ w.extractLsb' 0 2 = 0b01#2 ∧ w.extractLsb' 13 3 = f ∧ regCB w = rs1
      ∧ immCB w = off := by
  refine ⟨_, rfl, BitVec.extractLsb'_append_eq_right, ?funct3, ?rs1, ?off⟩
  case funct3 =>
    refine BitVec.eq_of_getLsbD_eq fun k hk => ?_
    simp only [BitVec.getLsbD_append, BitVec.getLsbD_extractLsb']
    interval_cases k <;> simp
  case rs1 =>
    unfold regCB
    rw [show 1#2 = rs1.extractLsb' 3 2 from hrs1.symm]
    refine BitVec.eq_of_getLsbD_eq fun k hk => ?_
    simp only [BitVec.getLsbD_append, BitVec.getLsbD_extractLsb']
    interval_cases k <;> simp
  case off =>
    refine BitVec.eq_of_getLsbD_eq fun k hk => ?_
    simp only [immCB, BitVec.getLsbD_append, BitVec.getLsbD_extractLsb']
    interval_cases k <;> simp_all

theorem encodeCB_of_fields {w : BitVec 16} {f : BitVec 3} (hop : w.extractLsb' 0 2 = 0b01#2)
    (hf : w.extractLsb' 13 3 = f) : encodeCB f (regCB w) (immCB w) = .half w := by
  unfold encodeCB
  rw [← hop, ← hf]
  refine congrArg Encoding.half (BitVec.eq_of_getLsbD_eq fun k hk => ?_)
  simp only [immCB, regCB, BitVec.getLsbD_append, BitVec.getLsbD_extractLsb']
  interval_cases k <;> simp

theorem immCB_bit0 (w : BitVec 16) : (immCB w).getLsbD 0 = false := by
  rw [immCB, BitVec.getLsbD_append]
  rfl

/-- What a CR-type word is read back as (R108). -/
theorem encodeCR_fields (f : BitVec 4) (rs1 : Reg) :
    ∃ w, encodeCR f rs1 = .half w ∧ w.extractLsb' 0 2 = 0b10#2 ∧ w.extractLsb' 2 5 = 0#5 ∧ w.extractLsb' 7 5 = rs1
      ∧ w.extractLsb' 12 4 = f := by
  refine ⟨_, rfl, BitVec.extractLsb'_append_eq_right, extract_append_middle .., ?rs1, ?funct4⟩
  case rs1 => exact (extract_append_above (start := 5) ..).trans (extract_append_middle ..)
  case funct4 =>
    exact (extract_append_above (start := 10) ..).trans
      ((extract_append_above (start := 5) ..).trans BitVec.extractLsb'_append_eq_left)

theorem encodeCR_of_fields {w : BitVec 16} {f : BitVec 4} (hop : w.extractLsb' 0 2 = 0b10#2)
    (hzero : w.extractLsb' 2 5 = 0#5) (hf : w.extractLsb' 12 4 = f) : encodeCR f (w.extractLsb' 7 5) = .half w := by
  unfold encodeCR
  rw [← hop, ← hzero, ← hf, BitVec.extractLsb'_append_extractLsb'_eq_extractLsb' (show 12 = 7 + 5 from rfl),
    BitVec.extractLsb'_append_extractLsb'_eq_extractLsb' (show 7 = 2 + 5 from rfl),
    BitVec.extractLsb'_append_extractLsb'_eq_extractLsb' (show 2 = 0 + 2 from rfl)]
  exact congrArg Encoding.half BitVec.extractLsb'_eq_self

/-! ### The instruction that the fields of a format name

The decoder's tables as functions of the fields, so that both directions read one table. -/

/-- The branches, by funct3 (R106). -/
def branchOf (funct3 : BitVec 3) (rs1 rs2 : Reg) (off : BitVec 13) : Except DecodeError Instr :=
  match funct3 with
  | 0b000#3 => .ok (.beq rs1 rs2 off)
  | 0b001#3 => .ok (.bne rs1 rs2 off)
  | 0b100#3 => .ok (.blt rs1 rs2 off)
  | 0b101#3 => .ok (.bge rs1 rs2 off)
  | 0b110#3 => .ok (.bltu rs1 rs2 off)
  | 0b111#3 => .ok (.bgeu rs1 rs2 off)
  | _ => .error .notInTable32

/-- The CSR instructions, by funct3; `other` is what a word with another funct3 is (R106). -/
def csrInstrOf (funct3 : BitVec 3) (rd : Reg) (csr : CsrNum) (rs1 : BitVec 5) (other : Except DecodeError Instr) :
    Except DecodeError Instr :=
  match funct3 with
  | 0b001#3 => .ok (.csrrw rd csr rs1)
  | 0b010#3 => .ok (.csrrs rd csr rs1)
  | 0b011#3 => .ok (.csrrc rd csr rs1)
  | 0b101#3 => .ok (.csrrwi rd csr rs1)
  | 0b110#3 => .ok (.csrrsi rd csr rs1)
  | 0b111#3 => .ok (.csrrci rd csr rs1)
  | _ => other

/-- The four fixed SYSTEM words (R106). -/
def fixedWordOf (w : BitVec 32) : Except DecodeError Instr :=
  if w = 0x00000073#32 then .ok .ecall
  else if w = 0x00100073#32 then .ok .ebreak
  else if w = 0x10200073#32 then .ok .sret
  else if w = 0x30200073#32 then .ok .mret
  else .error .notInTable32

/-- The CJ and CB formats, by funct3 (R108). -/
def half01Of (funct3 : BitVec 3) (offJ : BitVec 12) (rs1 : Reg) (offB : BitVec 9) : Except DecodeError Instr :=
  match funct3 with
  | 0b001#3 => .ok (.cjal offJ)
  | 0b101#3 => .ok (.cj offJ)
  | 0b110#3 => .ok (.cbeqz rs1 offB)
  | 0b111#3 => .ok (.cbnez rs1 offB)
  | _ => .error .notInTable16

/-- The CR format, by funct4 (R108). -/
def half10Of (funct4 : BitVec 4) (rs1 : Reg) : Except DecodeError Instr :=
  match funct4 with
  | 0b1000#4 => if rs1 = 0#5 then .error .reservedCJr else .ok (.cjr rs1)
  | 0b1001#4 => if rs1 = 0#5 then .ok .cebreak else .ok (.cjalr rs1)
  | _ => .error .notInTable16

theorem decodeBranch_eq (w : BitVec 32) :
    decodeBranch w = branchOf (w.extractLsb' 12 3) (w.extractLsb' 15 5) (w.extractLsb' 20 5) (immB w) := rfl

theorem decodeSystem_eq (w : BitVec 32) :
    decodeSystem w = csrInstrOf (w.extractLsb' 12 3) (w.extractLsb' 7 5) (w.extractLsb' 20 12) (w.extractLsb' 15 5)
      (fixedWordOf w) := rfl

theorem decodeHalf01_eq (w : BitVec 16) :
    decodeHalf01 w = half01Of (w.extractLsb' 13 3) (immCJ w) (regCB w) (immCB w) := rfl

theorem decodeHalf10_eq (w : BitVec 16) : decodeHalf10 w = half10Of (w.extractLsb' 12 4) (w.extractLsb' 7 5) := rfl

/-! ### The decoder inverts the encoder -/

theorem decodeEncoding_encodeCsr (csr : CsrNum) (rs1 : BitVec 5) (f : BitVec 3) (rd : Reg) :
    ∃ other, decodeEncoding (encodeCsr csr rs1 f rd) = csrInstrOf f rd csr rs1 other := by
  refine ⟨fixedWordOf (iTypeWord csr rs1 f rd 0b1110011#7), ?_⟩
  simp only [encodeCsr_eq, decodeEncoding, decodeWord, iTypeWord_opcode, decodeSystem_eq, iTypeWord_funct3,
    iTypeWord_rd, iTypeWord_rs1, iTypeWord_imm]

theorem decodeEncoding_encodeBranch (f : BitVec 3) (rs1 rs2 : Reg) {off : BitVec 13} (hoff : off.getLsbD 0 = false) :
    decodeEncoding (encodeBranch f rs1 rs2 off) = branchOf f rs1 rs2 off := by
  obtain ⟨w, hw, hop, hf, hrs1, hrs2, himm⟩ := encodeBranch_fields f rs1 rs2 hoff
  simp only [hw, decodeEncoding, decodeWord, hop, decodeBranch_eq, hf, hrs1, hrs2, himm]

theorem decodeEncoding_encodeCJ (f : BitVec 3) {off : BitVec 12} (hoff : off.getLsbD 0 = false) :
    ∃ rs1 offB, decodeEncoding (encodeCJ f off) = half01Of f off rs1 offB := by
  obtain ⟨w, hw, hop, hf, himm⟩ := encodeCJ_fields f hoff
  refine ⟨regCB w, immCB w, ?_⟩
  simp only [hw, decodeEncoding, decodeHalf, hop, decodeHalf01_eq, hf, himm]

theorem decodeEncoding_encodeCB (f : BitVec 3) {rs1 : Reg} {off : BitVec 9} (hrs1 : rs1.extractLsb' 3 2 = 1)
    (hoff : off.getLsbD 0 = false) : ∃ offJ, decodeEncoding (encodeCB f rs1 off) = half01Of f offJ rs1 off := by
  obtain ⟨w, hw, hop, hf, hreg, himm⟩ := encodeCB_fields f hrs1 hoff
  refine ⟨immCJ w, ?_⟩
  simp only [hw, decodeEncoding, decodeHalf, hop, decodeHalf01_eq, hf, hreg, himm]

theorem decodeEncoding_encodeCR (f : BitVec 4) (rs1 : Reg) : decodeEncoding (encodeCR f rs1) = half10Of f rs1 := by
  obtain ⟨w, hw, hop, hzero, hreg, hf⟩ := encodeCR_fields f rs1
  simp only [hw, decodeEncoding, decodeHalf, hop, hzero, if_true, decodeHalf10_eq, hf, hreg]

theorem decodeEncoding_encodeInstr {i : Instr} (hwf : i.wf = true) : decodeEncoding (encodeInstr i) = .ok i := by
  cases i with
  | csrrw rd csr rs1 | csrrs rd csr rs1 | csrrc rd csr rs1 | csrrwi rd csr rs1 | csrrsi rd csr rs1
  | csrrci rd csr rs1 =>
    obtain ⟨other, hdecode⟩ := decodeEncoding_encodeCsr csr rs1 _ rd
    exact hdecode
  | jal rd off =>
    obtain ⟨w, hw, hop, hrd, himm⟩ := encodeInstr_jal_fields rd ((Bool.not_eq_true' _).mp hwf)
    simp only [hw, decodeEncoding, decodeWord, hop, hrd, himm]
  | jalr =>
    simp only [encodeInstr_jalr, decodeEncoding, decodeWord, iTypeWord_opcode, iTypeWord_funct3, iTypeWord_rd,
      iTypeWord_rs1, iTypeWord_imm, if_true]
  | beq | bne | blt | bge | bltu | bgeu =>
    exact decodeEncoding_encodeBranch _ _ _ ((Bool.not_eq_true' _).mp hwf)
  | cj | cjal =>
    obtain ⟨_, _, hdecode⟩ := decodeEncoding_encodeCJ _ ((Bool.not_eq_true' _).mp hwf)
    exact hdecode
  | cjr rs1 | cjalr rs1 => exact (decodeEncoding_encodeCR _ rs1).trans (if_neg (bne_iff_ne.mp hwf))
  | cbeqz | cbnez =>
    obtain ⟨hrs1, hoff⟩ := Bool.and_eq_true_iff.mp hwf
    obtain ⟨_, hdecode⟩ := decodeEncoding_encodeCB _ (beq_iff_eq.mp hrs1) ((Bool.not_eq_true' _).mp hoff)
    exact hdecode
  | cebreak | mret | sret | ecall | ebreak => rfl

/-! ### What decodes is well-formed and encodes back -/

section
variable {i : Instr}

theorem csrInstrOf_inv {f : BitVec 3} {rd : Reg} {csr : CsrNum} {rs1 : BitVec 5} {other : Except DecodeError Instr}
    (h : csrInstrOf f rd csr rs1 other = .ok i) :
    i.wf = true ∧ encodeInstr i = encodeCsr csr rs1 f rd ∨ other = .ok i := by
  unfold csrInstrOf at h
  split at h
  case h_7 => exact .inr h
  all_goals
    cases h
    exact .inl ⟨rfl, rfl⟩

theorem fixedWordOf_inv {w : BitVec 32} (h : fixedWordOf w = .ok i) : i.wf = true ∧ encodeInstr i = .word w := by
  unfold fixedWordOf at h
  split_ifs at h with hw hw hw hw
  all_goals
    cases h
    exact ⟨rfl, congrArg Encoding.word hw.symm⟩

theorem branchOf_inv {f : BitVec 3} {rs1 rs2 : Reg} {off : BitVec 13} (h : branchOf f rs1 rs2 off = .ok i) :
    i.wf = !off.getLsbD 0 ∧ encodeInstr i = encodeBranch f rs1 rs2 off := by
  unfold branchOf at h
  split at h
  case h_7 => cases h
  all_goals
    cases h
    exact ⟨rfl, rfl⟩

theorem half01Of_inv {f : BitVec 3} {offJ : BitVec 12} {rs1 : Reg} {offB : BitVec 9}
    (h : half01Of f offJ rs1 offB = .ok i) :
    i.wf = !offJ.getLsbD 0 ∧ encodeInstr i = encodeCJ f offJ
      ∨ i.wf = (rs1.extractLsb' 3 2 == 1 && !offB.getLsbD 0) ∧ encodeInstr i = encodeCB f rs1 offB := by
  unfold half01Of at h
  split at h
  case h_1 | h_2 =>
    cases h
    exact .inl ⟨rfl, rfl⟩
  case h_3 | h_4 =>
    cases h
    exact .inr ⟨rfl, rfl⟩
  case h_5 => cases h

theorem half10Of_inv {f : BitVec 4} {rs1 : Reg} (h : half10Of f rs1 = .ok i) :
    i.wf = true ∧ encodeInstr i = encodeCR f rs1 := by
  unfold half10Of at h
  split at h
  case h_1 =>
    split at h
    case isTrue => cases h
    case isFalse hne =>
      cases h
      exact ⟨bne_iff_ne.mpr hne, rfl⟩
  case h_2 =>
    split at h
    case isTrue hzero =>
      cases h
      rw [hzero]
      exact ⟨rfl, rfl⟩
    case isFalse hne =>
      cases h
      exact ⟨bne_iff_ne.mpr hne, rfl⟩
  case h_3 => cases h

theorem decodeWord_inv {w : BitVec 32} (h : decodeWord w = .ok i) : i.wf = true ∧ encodeInstr i = .word w := by
  unfold decodeWord at h
  split at h
  case h_1 hop =>
    cases h
    exact ⟨(Bool.not_eq_true' _).mpr (immJ_bit0 w), encodeInstr_jal_of_fields hop⟩
  case h_2 hop =>
    split at h
    case isTrue hf =>
      cases h
      rw [encodeInstr_jalr, ← hop, ← hf, iTypeWord_fields]
      exact ⟨rfl, rfl⟩
    case isFalse => cases h
  case h_3 hop =>
    obtain ⟨hwf, henc⟩ := branchOf_inv ((decodeBranch_eq w).symm.trans h)
    exact ⟨hwf.trans ((Bool.not_eq_true' _).mpr (immB_bit0 w)), henc.trans (encodeBranch_of_fields hop rfl)⟩
  case h_4 hop =>
    rcases csrInstrOf_inv ((decodeSystem_eq w).symm.trans h) with ⟨hwf, henc⟩ | hfixed
    · exact ⟨hwf, henc.trans (encodeCsr_of_fields hop rfl)⟩
    · exact fixedWordOf_inv hfixed
  case h_5 => cases h

theorem decodeHalf_inv {w : BitVec 16} (h : decodeHalf w = .ok i) : i.wf = true ∧ encodeInstr i = .half w := by
  unfold decodeHalf at h
  split at h
  case h_1 hop =>
    rcases half01Of_inv ((decodeHalf01_eq w).symm.trans h) with ⟨hwf, henc⟩ | ⟨hwf, henc⟩
    · exact ⟨hwf.trans ((Bool.not_eq_true' _).mpr (immCJ_bit0 w)), henc.trans (encodeCJ_of_fields hop rfl)⟩
    · have hreg : ((regCB w).extractLsb' 3 2 == 1 && !(immCB w).getLsbD 0) = true :=
        Bool.and_eq_true_iff.mpr ⟨beq_iff_eq.mpr (regCB_high w), (Bool.not_eq_true' _).mpr (immCB_bit0 w)⟩
      exact ⟨hwf.trans hreg, henc.trans (encodeCB_of_fields hop rfl)⟩
  case h_2 hop =>
    split at h
    case isTrue hzero =>
      obtain ⟨hwf, henc⟩ := half10Of_inv ((decodeHalf10_eq w).symm.trans h)
      exact ⟨hwf, henc.trans (encodeCR_of_fields hop hzero rfl)⟩
    case isFalse => cases h
  case h_3 => cases h

theorem decodeEncoding_inv {enc : Encoding} (h : decodeEncoding enc = .ok i) : i.wf = true ∧ encodeInstr i = enc := by
  cases enc with
  | half w => exact decodeHalf_inv h
  | word w => exact decodeWord_inv h

end

/-! ### Bytes -/

/-- The length bits of an encoding say how long it is (R105). -/
def Encoding.LengthOk : Encoding → Prop
  | .half w => w.extractLsb' 0 2 ≠ 0b11#2
  | .word w => w.extractLsb' 0 2 = 0b11#2 ∧ w.extractLsb' 2 3 ≠ 0b111#3

theorem lengthOk_of_opcode {w : BitVec 32} {op : BitVec 7} (hop : w.extractLsb' 0 7 = op)
    (hlow : op.extractLsb' 0 2 = 0b11#2) (hnext : op.extractLsb' 2 3 ≠ 0b111#3) : Encoding.LengthOk (.word w) := by
  subst hop
  rw [extract_extract _ (by decide)] at hlow hnext
  exact ⟨hlow, hnext⟩

/-- Every row of the table has the length bits of its length (R105, R106, R108). -/
theorem decodeEncoding_lengthOk {enc : Encoding} {i : Instr} (h : decodeEncoding enc = .ok i) :
    Encoding.LengthOk enc := by
  cases enc with
  | half w =>
    change decodeHalf w = .ok i at h
    unfold decodeHalf at h
    split at h
    case h_1 hop => exact ne_of_eq_of_ne hop (by decide)
    case h_2 hop => exact ne_of_eq_of_ne hop (by decide)
    case h_3 => cases h
  | word w =>
    change decodeWord w = .ok i at h
    unfold decodeWord at h
    split at h
    case h_5 => cases h
    all_goals exact lengthOk_of_opcode ‹_› (by decide) (by decide)

theorem splitEncoding_bytes {enc : Encoding} (h : Encoding.LengthOk enc) (rest : List Byte) :
    splitEncoding (enc.bytes ++ rest) = .ok (enc, rest) := by
  cases enc with
  | half w =>
    have hlow : (w.extractLsb' 0 8).extractLsb' 0 2 ≠ 0b11#2 := by
      rw [extract_extract _ (by decide)]
      exact h
    have hwhole : w.extractLsb' 8 8 ++ w.extractLsb' 0 8 = w :=
      (BitVec.extractLsb'_append_extractLsb'_eq_extractLsb' (show 8 = 0 + 8 from rfl)).trans
        BitVec.extractLsb'_eq_self
    simp only [Encoding.bytes, List.cons_append, List.nil_append, splitEncoding, if_neg hlow, hwhole]
  | word w =>
    obtain ⟨hlow, hnext⟩ := h
    have hlow : (w.extractLsb' 0 8).extractLsb' 0 2 = 0b11#2 := by
      rw [extract_extract _ (by decide)]
      exact hlow
    have hnext : (w.extractLsb' 0 8).extractLsb' 2 3 ≠ 0b111#3 := by
      rw [extract_extract _ (by decide)]
      exact hnext
    have hwhole : w.extractLsb' 24 8 ++ w.extractLsb' 16 8 ++ w.extractLsb' 8 8 ++ w.extractLsb' 0 8 = w := by
      rw [BitVec.extractLsb'_append_extractLsb'_eq_extractLsb' (show 24 = 16 + 8 from rfl),
        BitVec.extractLsb'_append_extractLsb'_eq_extractLsb' (show 16 = 8 + 8 from rfl),
        BitVec.extractLsb'_append_extractLsb'_eq_extractLsb' (show 8 = 0 + 8 from rfl)]
      exact BitVec.extractLsb'_eq_self
    simp only [Encoding.bytes, List.cons_append, List.nil_append, splitEncoding, if_pos hlow, if_neg hnext, hwhole]

/-- The bytes that an encoding was split off. -/
theorem splitEncoding_inv {bytes rest : List Byte} {enc : Encoding} (h : splitEncoding bytes = .ok (enc, rest)) :
    bytes = enc.bytes ++ rest := by
  unfold splitEncoding at h
  split at h
  case h_2 => cases h
  case h_1 b0 b1 tail =>
    split at h
    case isFalse =>
      cases h
      have h0 : (b1 ++ b0).extractLsb' 0 8 = b0 := BitVec.extractLsb'_append_eq_right
      have h1 : (b1 ++ b0).extractLsb' 8 8 = b1 := BitVec.extractLsb'_append_eq_left
      simp only [Encoding.bytes, h0, h1, List.cons_append, List.nil_append]
    case isTrue =>
      split at h
      case isTrue => cases h
      case isFalse =>
        split at h
        case h_2 => cases h
        case h_1 b2 b3 tail =>
          cases h
          have h0 : (b3 ++ b2 ++ b1 ++ b0).extractLsb' 0 8 = b0 := BitVec.extractLsb'_append_eq_right
          have h1 : (b3 ++ b2 ++ b1 ++ b0).extractLsb' 8 8 = b1 := extract_append_middle ..
          have h2 : (b3 ++ b2 ++ b1 ++ b0).extractLsb' 16 8 = b2 :=
            (extract_append_above (start := 8) ..).trans (extract_append_middle ..)
          have h3 : (b3 ++ b2 ++ b1 ++ b0).extractLsb' 24 8 = b3 :=
            (extract_append_above (start := 16) ..).trans
              ((extract_append_above (start := 8) ..).trans BitVec.extractLsb'_append_eq_left)
          simp only [Encoding.bytes, h0, h1, h2, h3, List.cons_append, List.nil_append]

theorem encodeInstr_lengthOk {i : Instr} (hwf : i.wf = true) : Encoding.LengthOk (encodeInstr i) :=
  decodeEncoding_lengthOk (decodeEncoding_encodeInstr hwf)

/-- Settles O1: the encoder's bytes split off as its encoding, and each format's fields are read back. -/
theorem decodeEncodeRoundTrip : Obligations.DecodeEncodeRoundTrip := by
  intro i rest hwf
  simp only [decode, encode, splitEncoding_bytes (encodeInstr_lengthOk hwf), decodeEncoding_encodeInstr hwf]

/-- Settles O2: each format is the assembly of its fields, and each encoding the assembly of its bytes. -/
theorem decodedIsWellFormed : Obligations.DecodedIsWellFormed := by
  intro bytes i rest h
  unfold decode at h
  split at h
  case h_1 => cases h
  case h_2 enc tail hsplit =>
    split at h
    case h_1 => cases h
    case h_2 j hdecode =>
      cases h
      obtain ⟨hwf, henc⟩ := decodeEncoding_inv hdecode
      refine ⟨hwf, ?_⟩
      rw [encode, henc]
      exact splitEncoding_inv hsplit

/-- Settles O3, each word by evaluation. -/
theorem specExampleWordsDecode : Obligations.SpecExampleWordsDecode := by
  unfold Obligations.SpecExampleWordsDecode
  and_intros <;> decide

/-- Settles O4: the length bits, the quadrant and funct3 decide before anything else is read. -/
theorem reservedEncodingsRefused : Obligations.ReservedEncodingsRefused := by
  refine ⟨fun b0 b1 rest h => ?longer, fun w h => ?quadrant, fun w hop h => ?funct3, rfl⟩
  case longer =>
    have hlow : b0.extractLsb' 0 2 = 0b11#2 := by
      rw [← extract_extract (start := 0) (lo := 0) (n := 5) b0 (by decide), h]
      decide
    have hnext : b0.extractLsb' 2 3 = 0b111#3 := by
      rw [← extract_extract (start := 2) (lo := 0) (n := 5) b0 (by decide), h]
      decide
    simp only [decode, splitEncoding, if_pos hlow, if_pos hnext]
  case quadrant =>
    simp only [decodeEncoding, decodeHalf, h]
    rfl
  case funct3 =>
    have hf : (w.extractLsb' 12 3).extractLsb' 1 2 = 0b01#2 := by
      rw [extract_extract _ (by decide)]
      exact h
    have hrefused : ∀ f : BitVec 3, f.extractLsb' 1 2 = 0b01#2 → f = 0b010#3 ∨ f = 0b011#3 := by decide
    simp only [decodeEncoding, decodeWord, hop, decodeBranch_eq]
    rcases hrefused _ hf with hf | hf <;> rw [hf] <;> rfl

end Sys2Proof.Machine
end

section
/-! Fetching (spec/20_memory.md R82; logs 7, 8, 20): a step runs the instruction whose bytes stand at the pc, and the
bytes placed there are the ones fetched. -/

namespace Sys2Proof.Machine

/-! ### Placed bytes -/

/-- The bytes after the pc have different addresses, also where they wrap around. -/
theorem State.pcAddr_ne (s : State) {j k : Nat} (hjk : j < k) (hk : k < 2 ^ 32) : s.pcAddr j ≠ s.pcAddr k := by
  unfold State.pcAddr State.pcNext trunc
  cases s.x
  case x32 =>
    simp only [BitVec.toNat_setWidth, BitVec.toNat_add, BitVec.toNat_ofNat]
    omega
  case x64 =>
    simp only [BitVec.toNat_add, BitVec.toNat_ofNat]
    omega

/-- Placing bytes from the k-th after the pc on writes those and keeps the ones before. -/
theorem memRead_placeBytes (bytes : List Byte) (s : State) {j k : Nat} (hk : k + bytes.length ≤ 2 ^ 32)
    (hj : j < k + bytes.length) :
    memRead (s.placeBytes k bytes).mem (s.pcAddr j) =
      if j < k then memRead s.mem (s.pcAddr j) else bytes[j - k]? := by
  induction bytes generalizing s k with
  | nil =>
    have hlt : j < k := by simpa using hj
    rw [if_pos hlt]
    rfl
  | cons b bytes ih =>
    rw [List.length_cons] at hk hj
    have hstep : memRead (s.placeBytes k (b :: bytes)).mem (s.pcAddr j) =
        if j < k + 1 then memRead (memWrite s.mem (s.pcAddr k) b) (s.pcAddr j) else bytes[j - (k + 1)]? :=
      ih { s with mem := memWrite s.mem (s.pcAddr k) b } (by omega) (by omega)
    rw [hstep]
    rcases Nat.lt_trichotomy j k with hlt | rfl | hgt
    · rw [if_pos hlt, if_pos (by omega), memRead_memWrite_other _ (s.pcAddr_ne hlt (by omega))]
    · rw [if_neg (Nat.lt_irrefl j), if_pos (Nat.lt_succ_self j), memRead_memWrite_same, Nat.sub_self]
      rfl
    · obtain ⟨d, rfl⟩ := Nat.exists_eq_add_of_lt hgt
      rw [if_neg (by omega), if_neg (by omega), show k + d + 1 - k = d + 1 by omega,
        show k + d + 1 - (k + 1) = d by omega, List.getElem?_cons_succ]

/-- A byte of what was placed next. -/
theorem State.fetchByte_placeNext (s : State) {bytes : List Byte} (hlen : bytes.length ≤ 4) {j : Nat}
    (hj : j < bytes.length) : (s.placeNext bytes).fetchByte j = bytes[j]? := by
  have hpc : (s.placeNext bytes).pcAddr j = s.pcAddr j := by
    rw [State.placeNext, s.placeBytes_eq bytes 0]
    rfl
  have hread := memRead_placeBytes bytes s (j := j) (k := 0) (by omega) (by omega)
  rw [State.fetchByte, hpc]
  exact hread

/-- An encoding placed next is fetched whole, since its length bits say how long it is (R105). -/
theorem State.fetchBytes_placeNext (s : State) {enc : Encoding} (h : Encoding.LengthOk enc) :
    (s.placeNext enc.bytes).fetchBytes = some enc.bytes := by
  cases enc with
  | half w =>
    have hlen : (Encoding.half w).bytes.length ≤ 4 := Nat.le_of_ble_eq_true rfl
    have hbyte (j : Nat) (hj : j < 2) := s.fetchByte_placeNext hlen (j := j) hj
    have hlow : (w.extractLsb' 0 8).extractLsb' 0 2 ≠ 0b11#2 := by
      rw [extract_extract _ (by decide)]
      exact h
    rw [State.fetchBytes, hbyte 0 (by decide), hbyte 1 (by decide)]
    exact if_neg fun hlong => hlow hlong.1
  | word w =>
    obtain ⟨hlow, hnext⟩ := h
    have hlen : (Encoding.word w).bytes.length ≤ 4 := Nat.le_of_ble_eq_true rfl
    have hbyte (j : Nat) (hj : j < 4) := s.fetchByte_placeNext hlen (j := j) hj
    have hlong : (w.extractLsb' 0 8).extractLsb' 0 2 = 0b11#2 ∧ (w.extractLsb' 0 8).extractLsb' 2 3 ≠ 0b111#3 := by
      rw [extract_extract _ (by decide), extract_extract _ (by decide)]
      exact ⟨hlow, hnext⟩
    rw [State.fetchBytes, hbyte 0 (by decide), hbyte 1 (by decide), hbyte 2 (by decide), hbyte 3 (by decide)]
    exact if_pos hlong

/-! ### The obligations -/

/-- Settles O6: the bytes placed at the pc are fetched whole, and decode by the round trip. -/
theorem placedInstructionIsFetched : Obligations.PlacedInstructionIsFetched := by
  intro s i hwf
  refine ⟨encode i, [], s.fetchBytes_placeNext (encodeInstr_lengthOk hwf), ?_⟩
  have hdecode := decodeEncodeRoundTrip i [] hwf
  rwa [List.append_nil] at hdecode

theorem State.Fetches.runInstr {s : State} {i : Instr} (h : s.Fetches i) : s.runInstr = exec i s := by
  obtain ⟨bytes, rest, hbytes, hdecode⟩ := h
  simp only [State.runInstr, hbytes, hdecode]

/-- Settles O5: the event list alone decides what runs, and fetching does not read it. -/
theorem stepRunsDecodedInstruction : Obligations.StepRunsDecodedInstruction := by
  refine fun s i hfetch => ⟨fun henv => ?_, fun es henv => ?_⟩
  · simp only [step, State.cycle, henv]
    exact hfetch.runInstr
  · have hfetch' : State.Fetches { s with env := es } i := hfetch
    simp only [step, State.cycle, henv]
    exact hfetch'.runInstr

end Sys2Proof.Machine
end

section
/-! The instructions that trap or return (spec/45_transfer_type_filtering.md R274 to R278; spec/30_encoding.md R105;
logs 18, 19, 21, 22): each is one exception raised, or the shared return. -/

namespace Sys2Proof.Machine

/-! ### Environment calls and breakpoints -/

/-- Settles O19: the cause is the mode's, by `ecallCause`. -/
theorem ecallTraps : Obligations.EcallTraps := by
  intro s cause hcause
  have hmode : ecallCause s.mode = cause := by
    rcases hcause with ⟨h | h, rfl⟩ | ⟨h, rfl⟩ | ⟨h, rfl⟩ | ⟨h | h, rfl⟩ <;> rw [h] <;> rfl
  rw [← hmode]
  exact s.raise_traps ⟨ecallCause s.mode, 0⟩

/-- Settles O20: both raise the one breakpoint exception. -/
theorem breakpointsTrap : Obligations.BreakpointsTrap := by
  refine fun s => ⟨s.raise_traps (excBreakpoint s), fun hC => ?_⟩
  have hexec : exec .cebreak s = s.raise (excBreakpoint s) := State.compressed_of_hasC hC _ _
  rw [hexec]
  exact s.raise_traps (excBreakpoint s)

/-! ### Compressed instructions without C -/

/-- The seven instructions of 2 bytes check for the C extension before anything else (log 22). -/
theorem exec_of_len_two (s : State) {i : Instr} (hlen : i.len = 2) : ∃ run, exec i s = s.compressed i run := by
  cases i with
  | cjal off =>
    change ∃ run, execCjal off s = _
    unfold execCjal
    cases s.x
    case x32 => exact ⟨_, rfl⟩
    case x64 => exact ⟨_, rfl⟩
  | cj | cjr | cjalr | cbeqz | cbnez | cebreak => exact ⟨_, rfl⟩
  | _ => exact absurd (show 4 = 2 from hlen) (by decide)

/-- Settles O29: without C the check raises the illegal instruction exception. -/
theorem compressedIllegalWithoutC : Obligations.CompressedIllegalWithoutC := by
  intro s i hC hlen
  obtain ⟨run, hexec⟩ := exec_of_len_two s hlen
  have hillegal : s.compressed i run = s.raise (excIllegal s i) := if_neg (Bool.eq_false_iff.mp hC)
  rw [hexec, hillegal]
  exact s.raise_traps (excIllegal s i)

/-! ### `mret` and `sret` -/

theorem execMret_raises {s : State} (hM : s.mode ≠ .M) (hD : s.mode ≠ .Debug) :
    execMret s = s.raise (excIllegal s .mret) := by
  unfold execMret
  split
  case h_1 h => exact absurd h hM
  case h_2 h => exact absurd h hD
  all_goals rfl

/-- The modes, and the bits of `mstatus`, that make `sret` an illegal instruction (R276, logs 19, 21). -/
theorem execSret_raises_illegal {s : State}
    (h : s.mode = .U ∨ s.mode = .S ∧ s.mstatus.tsr = true ∨ (s.mode = .M ∨ s.mode = .Debug) ∧ s.cfg.hasS = false) :
    execSret s = s.raise (excIllegal s .sret) := by
  unfold execSret
  rcases h with hU | ⟨hS, htsr⟩ | ⟨hM | hD, hasS⟩
  · rw [hU]
  · simp only [hS, htsr, if_true]
  · simp only [hM, hasS, Bool.false_eq_true, if_false]
  · simp only [hD, hasS, Bool.false_eq_true, if_false]

/-- From V=1 a forbidden `sret` is a virtual instruction (R276). -/
theorem execSret_raises_virtual {s : State} (h : s.mode = .VU ∨ s.mode = .VS ∧ s.hstatus.vtsr = true) :
    execSret s = s.raise (excVirtual s .sret) := by
  unfold execSret
  rcases h with hVU | ⟨hVS, hvtsr⟩
  · rw [hVU]
  · simp only [hVS, hvtsr, if_true]

theorem execSret_returns_hs {s : State}
    (h : (s.mode = .M ∨ s.mode = .Debug) ∧ s.cfg.hasS = true ∨ s.mode = .S ∧ s.mstatus.tsr = false) :
    execSret s = s.sretHs := by
  unfold execSret
  rcases h with ⟨hM | hD, hasS⟩ | ⟨hS, htsr⟩
  · simp only [hM, hasS, if_true]
  · simp only [hD, hasS, if_true]
  · simp only [hS, htsr, Bool.false_eq_true, if_false]

theorem execSret_returns_vs {s : State} (hmode : s.mode = .VS) (hvtsr : s.hstatus.vtsr = false) :
    execSret s = s.sretVs := by
  unfold execSret
  simp only [hmode, hvtsr, Bool.false_eq_true, if_false]

/-- Settles O23: each forbidden return raises its exception, with the bits of its own word. -/
theorem forbiddenReturnsTrap : Obligations.ForbiddenReturnsTrap := by
  refine ⟨fun s hM hD => ?mret, fun s h => ?illegal, fun s h => ?virtual⟩
  case mret =>
    rw [show exec .mret s = s.raise (excIllegal s .mret) from execMret_raises hM hD]
    exact s.raise_traps (excIllegal s .mret)
  case illegal =>
    rw [show exec .sret s = s.raise (excIllegal s .sret) from execSret_raises_illegal h]
    exact s.raise_traps (excIllegal s .sret)
  case virtual =>
    rw [show exec .sret s = s.raise (excVirtual s .sret) from execSret_raises_virtual h]
    exact s.raise_traps (excVirtual s .sret)

/-- The mode `sret` returns to outside V=1, as a choice by SPV, SPP and the modes the hart has (R276, log 42). -/
theorem sretMode_eq (cfg : Config) (m : MStatus) (h : HStatus) :
    sretMode cfg m h = if cfg.hasH = true ∧ h.spv = true then (if m.spp then Mode.VS else Mode.VU)
      else if m.spp = false ∧ cfg.hasU = true then Mode.U
      else if cfg.hasS = true then Mode.S else Mode.M := by
  unfold sretMode landU landS
  cases m.spp <;> simp

/-- Settles O22: `sret` is the shared return after its change of `mstatus` or `vsstatus`. -/
theorem sretReturns : Obligations.SretReturns := by
  refine ⟨fun s h => ?hs, fun s hmode hvtsr => ?vs⟩
  case hs =>
    exact ⟨_, _, execSret_returns_hs h, sretMode_eq s.cfg s.mstatus s.hstatus,
      s.trapReturned_returnTo (sretStatus s.mstatus) s.vsstatus _ _, rfl, rfl⟩
  case vs =>
    exact ⟨_, _, execSret_returns_vs hmode hvtsr, rfl,
      s.trapReturned_returnTo s.mstatus (sretVsStatus s.vsstatus) _ _, rfl, rfl⟩

end Sys2Proof.Machine
end

section
/-! The six CSR instructions where the access is allowed (spec/40_csr_access.md R120, R140 to R145). -/

namespace Sys2Proof.Machine

/-! ### What a read gives has XLEN bits -/

theorem trunc_shiftRight_32 (x : Xlen) (v : Word) : trunc x (v >>> 32) = v >>> 32 := by
  apply trunc_of_toNat_lt
  have hv := v.isLt
  rw [BitVec.toNat_ushiftRight, Nat.shiftRight_eq_div_pow]
  omega

/-- The layout of `mctrstatus` (R133): WRPTR below WRAP and FROZEN, zeros elsewhere. -/
theorem Ctr.statusWord_getLsbD (c : Ctr) (k : Nat) :
    c.statusWord.getLsbD k =
      if k = 15 then c.frozen else if k = 14 then c.wrap else if k < 8 then c.wrptr.getLsbD k else false := by
  simp only [Ctr.statusWord, BitVec.getLsbD_append, BitVec.getLsbD_zero, BitVec.getLsbD_ofBool]
  grind

theorem Ctr.trunc_statusWord (x : Xlen) (c : Ctr) : trunc x c.statusWord = c.statusWord := by
  apply BitVec.eq_of_getLsbD_eq
  intro k _
  rw [trunc_getLsbD]
  by_cases hk : k < 32
  case pos => rw [decide_eq_true (Nat.lt_of_lt_of_le hk (le_xbits x)), Bool.true_and]
  case neg =>
    have hzero : c.statusWord.getLsbD k = false := by
      rw [c.statusWord_getLsbD, if_neg (by omega), if_neg (by omega), if_neg (by omega)]
    rw [hzero, Bool.and_false]

theorem Ctr.trunc_readEntry (x : Xlen) (c : Ctr) (r : IReg) (i : Nat) :
    trunc x (c.readEntry x r i) = c.readEntry x r i := by
  unfold Ctr.readEntry
  split
  · exact trunc_trunc x _
  · exact trunc_zero x

theorem State.trunc_readCsr (s : State) (c : Csr) : trunc s.x (s.readCsr c) = s.readCsr c := by
  unfold State.readCsr
  cases aliasOf s.mode c
  case mctrcontrolh | sctrcontrolh | vsctrcontrolh | mstatush | mstateen0h | hstateen0h =>
    exact trunc_shiftRight_32 s.x _
  case mctrstatus | sctrstatus => exact Ctr.trunc_statusWord s.x s.ctr
  case mireg | sireg | vsireg => exact Ctr.trunc_readEntry s.x s.ctr _ _
  all_goals exact trunc_trunc s.x _

/-! ### An allowed access -/

/-- What is written back, and to what state: `u` is the state after the write, or the same one (R120). -/
theorem State.csrDone_csrDone (s : State) (c : Csr) (rd : Reg) {u : State} (hu : u = s ∨ ∃ v, u = s.writeCsr c v) :
    s.CsrDone (u.csrDone rd (s.readCsr c)) u rd (s.readCsr c) := by
  have hframe : u.cfg = s.cfg ∧ u.mode = s.mode ∧ u.pc = s.pc ∧ u.regs = s.regs ∧ u.env = s.env ∧ u.mem = s.mem := by
    rcases hu with rfl | ⟨v, rfl⟩ <;> simp
  obtain ⟨hcfg, hmode, hpc, hregs, henv, hmem⟩ := hframe
  have hx : u.x = s.x := by rw [State.x, hcfg, hmode, State.x]
  exact
    { dest := by
        change (u.setReg rd (s.readCsr c)).reg rd = _
        split
        case isTrue h0 => rw [h0, State.reg_zero]
        case isFalse h0 => rw [u.reg_setReg_same h0, hx, s.trunc_readCsr]
      pc := by
        rw [State.csrDone_pc, State.pcNext, hx, hpc]
        rfl
      ctr := by rw [State.csrDone_ctr, hcfg, hmode]
      regs := fun r hr => by rw [State.csrDone_regs, u.regs_setReg_other hr, hregs]
      priv := by constructor <;> rfl
      base := by constructor <;> intros <;> rfl
      mode := hmode
      env := henv
      mem := fun a => by rw [State.csrDone_mem, hmem] }

/-- What an allowed access leaves, by what it writes: nothing, or a function of the value read. -/
theorem State.csrOp_done {s : State} {n : CsrNum} {c : Csr} (hc : csrOf n = some c) (hpass : s.checkAccess c = .pass)
    (hin : s.selectOutside c = false) (i : Instr) (rd : Reg) (write : Option (Word → Word)) :
    ∃ t, s.csrOp i n rd write = .next t
      ∧ s.CsrDone t (write.elim s fun f => s.writeCsr c (f (s.readCsr c))) rd (s.readCsr c) := by
  rw [State.csrOp_next hc hpass hin]
  cases write with
  | none => exact ⟨_, rfl, s.csrDone_csrDone c rd (.inl rfl)⟩
  | some f => exact ⟨_, rfl, s.csrDone_csrDone c rd (.inr ⟨_, rfl⟩)⟩

/-- An access that writes unless its source is named 0. -/
theorem State.csrOp_done_unless {s : State} {n : CsrNum} {c : Csr} (hc : csrOf n = some c)
    (hpass : s.checkAccess c = .pass) (hin : s.selectOutside c = false) (i : Instr) (rd : Reg) (zero : Prop)
    [Decidable zero] (f : Word → Word) :
    ∃ t, s.csrOp i n rd (if zero then none else some f) = .next t
      ∧ s.CsrDone t (if zero then s else s.writeCsr c (f (s.readCsr c))) rd (s.readCsr c) := by
  by_cases hzero : zero
  case pos =>
    rw [if_pos hzero, if_pos hzero]
    exact State.csrOp_done hc hpass hin i rd none
  case neg =>
    rw [if_neg hzero, if_neg hzero]
    exact State.csrOp_done hc hpass hin i rd (some f)

/-- Settles O31: both always write. -/
theorem csrWriteInstructions : Obligations.CsrWriteInstructions := fun s _ _ rd hc hpass hin =>
  ⟨fun rs1 => State.csrOp_done hc hpass hin _ rd (some fun _ => s.reg rs1),
    fun uimm => State.csrOp_done hc hpass hin _ rd (some fun _ => csrImm uimm)⟩

/-- Settles O32: both write the old value with the source's bits set, unless the source is named 0. -/
theorem csrSetInstructions : Obligations.CsrSetInstructions := fun s _ _ rd hc hpass hin =>
  ⟨fun rs1 => State.csrOp_done_unless hc hpass hin _ rd (rs1 = 0) (· ||| s.reg rs1),
    fun uimm => State.csrOp_done_unless hc hpass hin _ rd (uimm = 0) (· ||| csrImm uimm)⟩

/-- Settles O33: both write the old value with the source's bits cleared, unless the source is named 0. -/
theorem csrClearInstructions : Obligations.CsrClearInstructions := fun s _ _ rd hc hpass hin =>
  ⟨fun rs1 => State.csrOp_done_unless hc hpass hin _ rd (rs1 = 0) (· &&& ~~~s.reg rs1),
    fun uimm => State.csrOp_done_unless hc hpass hin _ rd (uimm = 0) (· &&& ~~~csrImm uimm)⟩

end Sys2Proof.Machine
end

section
/-! The CTR control and status registers (spec/40_csr_access.md R120 to R135; spec/10_state.md R25 to R44): the bits of
`mctrcontrol`, the views of it that `sctrcontrol` and the high halves give, and `mctrstatus`. -/

namespace Sys2Proof.Machine

/-! ### The bits of `mctrcontrol` -/

/-- `WM` (R121): M, S and U with their modes, and the optional fields of the implementation. -/
theorem maskM_getLsbD_iff (cfg : Config) (k : Nat) :
    (maskM cfg).getLsbD k = true ↔ k = 0 ∨ k = 1 ∧ cfg.hasS = true ∨ k = 2 ∧ cfg.hasU = true
      ∨ ∃ p ∈ ctlFieldBits, p.1 ∈ cfg.implM ∧ p.2 = k := by
  have hone : (1 : Word) = bitIf true 0 := by decide
  have hfields : (fieldMask cfg.implM).getLsbD k = true ↔ ∃ p ∈ ctlFieldBits, p.1 ∈ cfg.implM ∧ p.2 = k := by
    rw [fieldMask_getLsbD_iff]
    constructor
    · rintro ⟨f, hf, hk⟩
      exact ⟨(f, k), (mem_ctlFieldBits_iff _).mpr hk, hf, rfl⟩
    · rintro ⟨p, hp, hf, hk⟩
      exact ⟨p.1, hf, ((mem_ctlFieldBits_iff p).mp hp).trans hk⟩
  simp only [maskM, hone, BitVec.getLsbD_or, Bool.or_eq_true, hfields, bitIf_getLsbD _ (by decide : 0 < 64),
    bitIf_getLsbD _ (by decide : 1 < 64), bitIf_getLsbD _ (by decide : 2 < 64), Bool.and_eq_true, decide_eq_true_eq,
    or_assoc, eq_comm (b := k), and_comm (b := k = _), and_true]

/-- No field stands where DEPTH and CLR do (R25). -/
theorem maskM_getLsbD_of_not_field (cfg : Config) {k : Nat} (hk : k = 7 ∨ 16 ≤ k ∧ k < 20) :
    (maskM cfg).getLsbD k = false := by
  rw [Bool.eq_false_iff, ne_eq, maskM_getLsbD_iff]
  rintro (h | ⟨h, -⟩ | ⟨h, -⟩ | ⟨⟨f, n⟩, hp, -, h⟩)
  iterate 3 omega
  obtain rfl : fieldPos f = n := (mem_ctlFieldBits_iff _).mp hp
  have hpos : fieldPos f ≠ 7 ∧ (fieldPos f < 16 ∨ 20 ≤ fieldPos f) := by cases f <;> decide
  change fieldPos f = k at h
  omega

/-! ### DEPTH in a word -/

theorem depthField_getLsbD (w : Word) (k : Nat) : (depthField w).getLsbD k = (decide (k < 4) && w.getLsbD (16 + k)) :=
  BitVec.getLsbD_extractLsb' 16 4 w k

@[simp] theorem depthField_setDepthField (w : Word) (d : BitVec 4) : depthField (setDepthField w d) = d :=
  extract_append_middle ..

theorem setDepthField_getLsbD (w : Word) (d : BitVec 4) {k : Nat} (hk : k < 64) :
    (setDepthField w d).getLsbD k = if 16 ≤ k ∧ k < 20 then d.getLsbD (k - 16) else w.getLsbD k := by
  simp only [setDepthField, BitVec.getLsbD_append, BitVec.getLsbD_extractLsb']
  grind

theorem Ctr.depth_eq_iff (c d : Ctr) : c.depth = d.depth ↔ depthField c.mctl = depthField d.mctl := by
  rw [← BitVec.toNat_inj]
  unfold Ctr.depth
  omega

theorem depthField_coverLow (x : Xlen) : depthField (coverLow x) = 0b1111 := by cases x <;> decide

theorem depthField_coverHigh : depthField coverHigh = 0 := by decide

/-- An access of the low half covers CLR. -/
theorem coverLow_getLsbD_clr (x : Xlen) : (coverLow x).getLsbD 7 = true := by cases x <;> decide

theorem coverHigh_getLsbD_clr : coverHigh.getLsbD 7 = false := by decide

theorem zero_getLsbD (k : Nat) : (0 : Word).getLsbD k = false := BitVec.getLsbD_zero

/-! ### What a write of `mctrcontrol` stores -/

section
variable (cfg : Config) (ev : Nat) (c : Ctr) (v cover protect : Word)

/-- The implemented bits that a write covers and that are not protected, DEPTH apart (R122). -/
def Ctr.mctlMerged : Word :=
  mergeBits c.mctl v (maskM cfg &&& cover &&& ~~~protect)

theorem Ctr.mctlAfter_eq :
    c.mctlAfter cfg v cover protect =
      if depthField cover = 0b1111 then
        setDepthField (c.mctlMerged cfg v cover protect) (depthBits (legalizeDepth cfg (depthField v)))
      else c.mctlMerged cfg v cover protect := rfl

theorem Ctr.mctlMerged_getLsbD {k : Nat} (hk : k < 64) :
    (c.mctlMerged cfg v cover protect).getLsbD k =
      if (maskM cfg).getLsbD k = true ∧ cover.getLsbD k = true ∧ protect.getLsbD k = false then v.getLsbD k
      else c.mctl.getLsbD k := by
  simp only [Ctr.mctlMerged, mergeBits_getLsbD _ _ _ hk, BitVec.getLsbD_and, BitVec.getLsbD_not, hk, decide_true,
    Bool.true_and, Bool.and_eq_true, Bool.not_eq_true', and_assoc]

/-- DEPTH is no implemented one-bit field, so the merge keeps it. -/
theorem Ctr.depthField_mctlMerged : depthField (c.mctlMerged cfg v cover protect) = depthField c.mctl := by
  apply BitVec.eq_of_getLsbD_eq
  intro k hk
  rw [depthField_getLsbD, depthField_getLsbD, Ctr.mctlMerged_getLsbD _ _ _ _ _ (by omega),
    maskM_getLsbD_of_not_field cfg (by omega), if_neg (fun h => Bool.false_ne_true h.1)]

theorem Ctr.depthField_mctlAfter :
    depthField (c.mctlAfter cfg v cover protect) =
      if depthField cover = 0b1111 then depthBits (legalizeDepth cfg (depthField v)) else depthField c.mctl := by
  rw [Ctr.mctlAfter_eq]
  split
  case isTrue => rw [depthField_setDepthField]
  case isFalse => rw [Ctr.depthField_mctlMerged]

theorem Ctr.mctlAfter_getLsbD {k : Nat} (hk : k < 64) :
    (c.mctlAfter cfg v cover protect).getLsbD k =
      if depthField cover = 0b1111 ∧ 16 ≤ k ∧ k < 20 then (depthBits (legalizeDepth cfg (depthField v))).getLsbD (k - 16)
      else if (maskM cfg).getLsbD k = true ∧ cover.getLsbD k = true ∧ protect.getLsbD k = false then v.getLsbD k
      else c.mctl.getLsbD k := by
  rw [Ctr.mctlAfter_eq, ← Ctr.mctlMerged_getLsbD cfg c v cover protect hk]
  by_cases hdepth : depthField cover = 0b1111
  · simp only [hdepth, if_true, true_and, setDepthField_getLsbD _ _ hk]
  · simp only [hdepth, if_false, false_and]

/-! ### The whole write -/

theorem Ctr.clear_statusWord : (c.clear cfg ev).statusWord = 0 := by
  rw [Ctr.statusWord, Ctr.clear_frozen, Ctr.clear_wrap, Ctr.clear_wrptr]
  rfl

theorem Ctr.clear_get (p : Fin 256) : (c.clear cfg ev).arr.get p = ⟨0, 0, 0⟩ := by
  rw [Ctr.clear_arr, Vector.get_eq_getElem, Vector.getElem_replicate]
  rfl

/-- Without a counter CLR has nothing hidden to draw (R130). -/
theorem Ctr.clear_count {cfg : Config} (hcc : cfg.hasCc = false) (ev : Nat) (c : Ctr) :
    (c.clear cfg ev).ccCount = c.ccCount ∧ (c.clear cfg ev).ccOk = c.ccOk := by
  simp [Ctr.clear, hcc]

variable {cfg ev c v cover protect}

/-- With CLR the write stores and clears (R122, R130). -/
theorem Ctr.writeMctl_of_clr (hclr : (cover.getLsbD 7 && v.getLsbD 7) = true) :
    c.writeMctl cfg ev v cover protect = Ctr.clear cfg ev { c with mctl := c.mctlAfter cfg v cover protect } := by
  rcases c.writeMctl_cases cfg ev v cover protect with ⟨-, h⟩ | ⟨hnot, -⟩
  case inl => exact h
  case inr => exact absurd (hclr.symm.trans hnot) (by decide)

/-- Without CLR the write stores, and draws the array where DEPTH changes (R122, R131). -/
theorem Ctr.writeMctl_of_not_clr (hclr : (cover.getLsbD 7 && v.getLsbD 7) = false) :
    c.writeMctl cfg ev v cover protect = { c with
      mctl := c.mctlAfter cfg v cover protect
      arr := if depthField (c.mctlAfter cfg v cover protect) = depthField c.mctl then c.arr
        else drawArray cfg ev } := by
  rcases c.writeMctl_cases cfg ev v cover protect with ⟨hset, -⟩ | ⟨-, ⟨hne, h⟩ | ⟨heq, h⟩⟩
  · exact absurd (hset.symm.trans hclr) (by decide)
  · rw [h, if_neg hne]
    rfl
  · rw [h, if_pos heq]

/-- What the protected bits change of a write that covers DEPTH: `mctrcontrol` alone. -/
theorem Ctr.writeMctl_protect (hdepth : depthField cover = 0b1111) (q : Word) :
    c.writeMctl cfg ev v cover protect =
      { c.writeMctl cfg ev v cover q with mctl := c.mctlAfter cfg v cover protect } := by
  cases hclr : cover.getLsbD 7 && v.getLsbD 7
  case true =>
    rw [Ctr.writeMctl_of_clr hclr, Ctr.writeMctl_of_clr hclr]
    rfl
  case false =>
    rw [Ctr.writeMctl_of_not_clr hclr, Ctr.writeMctl_of_not_clr hclr, Ctr.depthField_mctlAfter, if_pos hdepth,
      Ctr.depthField_mctlAfter, if_pos hdepth]

/-- A write that covers neither CLR nor DEPTH stores and does no more. -/
theorem Ctr.writeMctl_high :
    c.writeMctl cfg ev v coverHigh protect = { c with mctl := c.mctlAfter cfg v coverHigh protect } := by
  have hclr : (coverHigh.getLsbD 7 && v.getLsbD 7) = false := by rw [coverHigh_getLsbD_clr, Bool.false_and]
  have hdepth : depthField (c.mctlAfter cfg v coverHigh protect) = depthField c.mctl := by
    rw [Ctr.depthField_mctlAfter, depthField_coverHigh, if_neg (by decide)]
  rw [Ctr.writeMctl_of_not_clr hclr, if_pos hdepth]

end

/-- Where CLR is not asked for a write of `vsctrcontrol` stores and does no more (R122). -/
theorem Ctr.writeVsctl_of_not_clr {cfg : Config} {ev : Nat} {c : Ctr} {v cover : Word} {eff : Bool}
    (hclr : (cover.getLsbD 7 && v.getLsbD 7) = false) :
    c.writeVsctl cfg ev v cover eff = { c with vsctl := c.vsctlAfter cfg v cover } := by
  rcases c.writeVsctl_cases cfg ev v cover eff with ⟨hset, -⟩ | ⟨-, h⟩
  · rw [hclr] at hset
    exact absurd hset (by simp)
  · exact h

/-- An effective CLR clears (R122, R130). -/
theorem Ctr.writeVsctl_of_clr {cfg : Config} {ev : Nat} {c : Ctr} {v cover : Word}
    (hclr : (cover.getLsbD 7 && v.getLsbD 7) = true) :
    c.writeVsctl cfg ev v cover true = Ctr.clear cfg ev { c with vsctl := c.vsctlAfter cfg v cover } := by
  rcases c.writeVsctl_cases cfg ev v cover true with ⟨-, h⟩ | ⟨hnot, -⟩
  · exact h
  · rw [hclr] at hnot
    exact absurd hnot (by simp)

/-! ### A drawn array -/

/-- Bits drawn within a mask have none outside it. -/
theorem and_and_not_self (v mask : Word) : v &&& mask &&& ~~~mask = 0 := by
  rw [BitVec.and_assoc, BitVec.and_not_self]
  exact BitVec.and_zero

theorem Entry.zero_inv (cfg : Config) : Entry.zero.Inv cfg where
  src := BitVec.zero_and
  tgt := BitVec.zero_and
  data := BitVec.zero_and

theorem drawArray_get (cfg : Config) (ev : Nat) (p : Fin 256) :
    (drawArray cfg ev).get p = if p.val < maxDepth cfg then drawEntry cfg ev p.val else Entry.zero := by
  rw [drawArray, Vector.get_eq_getElem, Vector.getElem_ofFn]

theorem drawArray_inv (cfg : Config) (ev : Nat) (p : Fin 256) : ((drawArray cfg ev).get p).Inv cfg := by
  rw [drawArray_get]
  split
  case isTrue => exact ⟨and_and_not_self _ _, and_and_not_self _ _, and_and_not_self _ _⟩
  case isFalse => exact Entry.zero_inv cfg

/-- The slots above MAXDEPTH do not exist (log 38). -/
theorem drawArray_absent {cfg : Config} (ev : Nat) {p : Fin 256} (hp : maxDepth cfg ≤ p.val) :
    (drawArray cfg ev).get p = Entry.zero := by
  rw [drawArray_get, if_neg (Nat.not_lt.mpr hp)]

/-! ### What each register reaches -/

section
variable (s : State) (v : Word)

theorem State.readCsr_mctrcontrol : s.readCsr .mctrcontrol = trunc s.x s.ctr.mctl := by
  simp [State.readCsr, aliasOf]

theorem State.writeCsr_mctrcontrol :
    s.writeCsr .mctrcontrol v = { s with ctr := s.ctr.writeMctl s.cfg s.draws v (coverLow s.x) 0 } := by
  simp [State.writeCsr, aliasOf]

theorem State.writeCsr_mctrcontrolh :
    s.writeCsr .mctrcontrolh v = { s with ctr := s.ctr.writeMctl s.cfg s.draws (v <<< 32) coverHigh 0 } := by
  simp [State.writeCsr, aliasOf]

theorem State.writeCsr_vsctrcontrolh :
    s.writeCsr .vsctrcontrolh v = { s with ctr := s.ctr.writeVsctl s.cfg s.draws (v <<< 32) coverHigh false } := by
  simp [State.writeCsr, aliasOf]

theorem State.readCsr_sctrcontrol : s.readCsr .sctrcontrol = trunc s.x (s.ctr.sctlView s.mode) := by
  simp [State.readCsr, aliasOf]

theorem State.readCsr_highHalves :
    s.readCsr .mctrcontrolh = s.ctr.mctl >>> 32 ∧ s.readCsr .sctrcontrolh = s.ctr.sctlView s.mode >>> 32
      ∧ s.readCsr .vsctrcontrolh = s.ctr.vsctlView >>> 32 := by
  simp [State.readCsr, aliasOf]

theorem State.writeCsr_sctrcontrol :
    s.writeCsr .sctrcontrol v = { s with
      ctr := if isV s.mode then s.ctr.writeVsctl s.cfg s.draws v (coverLow s.x) true
        else s.ctr.writeMctl s.cfg s.draws v (coverLow s.x) sHidden } := by
  simp [State.writeCsr, aliasOf]

theorem State.writeCsr_sctrcontrolh :
    s.writeCsr .sctrcontrolh v = { s with
      ctr := if isV s.mode then s.ctr.writeVsctl s.cfg s.draws (v <<< 32) coverHigh true
        else s.ctr.writeMctl s.cfg s.draws (v <<< 32) coverHigh 0 } := by
  simp [State.writeCsr, aliasOf]

end

/-! ### Views -/

/-- The high half of a word is its bits from 32 up. -/
theorem shiftRight_32_congr {v w : Word} (h : ∀ k, 32 ≤ k → k < 64 → v.getLsbD k = w.getLsbD k) :
    v >>> 32 = w >>> 32 := by
  apply BitVec.eq_of_getLsbD_eq
  intro k _
  rw [BitVec.getLsbD_ushiftRight, BitVec.getLsbD_ushiftRight]
  by_cases hk : 32 + k < 64
  case pos => exact h _ (Nat.le_add_right 32 k) hk
  case neg => rw [BitVec.getLsbD_of_ge _ _ (Nat.not_lt.mp hk), BitVec.getLsbD_of_ge _ _ (Nat.not_lt.mp hk)]

/-- A mask of low bits hides nothing of the high half. -/
theorem and_not_shiftRight_32 (v : Word) {mask : Word} (hmask : mask.toNat < 2 ^ 32) :
    (v &&& ~~~mask) >>> 32 = v >>> 32 := by
  apply shiftRight_32_congr
  intro k hlow hk
  have hzero : mask.getLsbD k = false :=
    Nat.testBit_lt_two_pow (Nat.lt_of_lt_of_le hmask (Nat.pow_le_pow_right (by decide) hlow))
  rw [BitVec.getLsbD_and, BitVec.getLsbD_not, hzero, decide_eq_true hk]
  exact Bool.and_true _

/-- What `vsctrcontrol` shows in place of its own bits stands in the low half. -/
theorem Ctr.vsctlView_shiftRight_32 (c : Ctr) : c.vsctlView >>> 32 = c.vsctl >>> 32 := by
  rw [Ctr.vsctlView, and_not_shiftRight_32 _ (by decide)]
  apply shiftRight_32_congr
  intro k hlow hk
  rw [setDepthField_getLsbD _ _ hk, if_neg (by omega)]

/-- `sctrcontrol` hides M and MTE (R126). -/
theorem sHidden_getLsbD_iff (k : Nat) : sHidden.getLsbD k = true ↔ k = 0 ∨ k = 8 := by
  have hbits : sHidden = BitVec.twoPow 64 0 ||| BitVec.twoPow 64 8 := by decide
  rw [hbits, BitVec.getLsbD_or, Bool.or_eq_true, twoPow_getLsbD_iff (by decide), twoPow_getLsbD_iff (by decide),
    eq_comm (a := 0), eq_comm (a := 8)]

/-! ### The obligations -/

/-- A value's CLR is what the write of a low half asks for. -/
theorem clr_of_coverLow (x : Xlen) {v : Word} {b : Bool} (hv : v.getLsbD 7 = b) :
    ((coverLow x).getLsbD 7 && v.getLsbD 7) = b := by
  rw [coverLow_getLsbD_clr, Bool.true_and, hv]

/-- Settles O36: the write stores `mctlAfter`, and clears, draws the array or does no more. -/
theorem mctrcontrolReadsAndWrites : Obligations.MctrcontrolReadsAndWrites := by
  intro s v _
  rw [s.writeCsr_mctrcontrol]
  refine ⟨maskM_getLsbD_iff s.cfg, s.readCsr_mctrcontrol, fun k hk => ?bits, ?depth, fun hv => ?clear,
    fun hv => ?store, ?frame, fun hcc => ?count⟩
  case bits =>
    have hk64 : k < 64 := by omega
    rw [Ctr.writeMctl_mctl, Ctr.mctlAfter_getLsbD _ _ _ _ _ hk64, if_neg (by omega), coverLow_getLsbD]
    simp only [decide_eq_true_eq, zero_getLsbD, and_true]
  case depth =>
    rw [Ctr.writeMctl_mctl, Ctr.depthField_mctlAfter, if_pos (depthField_coverLow s.x)]
    rfl
  case clear =>
    rw [Ctr.writeMctl_of_clr (clr_of_coverLow s.x hv)]
    exact ⟨Ctr.clear_statusWord .., Ctr.clear_get _ _ _⟩
  case store =>
    rw [Ctr.writeMctl_of_not_clr (clr_of_coverLow s.x hv), Ctr.depth_eq_iff]
    exact ⟨rfl, rfl, fun hsame => if_pos hsame⟩
  case frame =>
    have hvsctl := s.ctr.writeMctl_vsctl s.cfg s.draws v (coverLow s.x) 0
    rw [← hvsctl]
  case count =>
    cases hv : v.getLsbD 7
    case true =>
      rw [Ctr.writeMctl_of_clr (clr_of_coverLow s.x hv)]
      exact Ctr.clear_count hcc ..
    case false =>
      rw [Ctr.writeMctl_of_not_clr (clr_of_coverLow s.x hv)]
      exact ⟨rfl, rfl⟩

/-- Settles O60: without CLR the whole write but the array is in `Ctr.writeMctl_of_not_clr`, and the array is drawn. -/
theorem depthChangeKeepsStatus : Obligations.DepthChangeKeepsStatus := by
  intro s v _ hv
  rw [s.writeCsr_mctrcontrol, Ctr.writeMctl_of_not_clr (clr_of_coverLow s.x hv), ne_eq, Ctr.depth_eq_iff]
  intro hchanged
  rw [if_neg hchanged]
  exact ⟨rfl, rfl, rfl, rfl, drawArray_inv s.cfg s.draws, fun p hp => drawArray_absent s.draws hp⟩

/-- Settles O37: neither CLR nor DEPTH is in the high half, and what the views hide or add is in the low half. -/
theorem highHalvesReadAndWrite : Obligations.HighHalvesReadAndWrite := by
  intro s v _ _
  obtain ⟨hread, hsread, hvsread⟩ := s.readCsr_highHalves
  have hshift (k : Nat) (hk : k < 64) (hhigh : 32 ≤ k) : (v <<< 32).getLsbD k = v.getLsbD (k - 32) := by
    rw [BitVec.getLsbD_shiftLeft, decide_eq_true hk, decide_eq_false (Nat.not_lt.mpr hhigh)]
    exact Bool.true_and _
  have hhost (hV : isV s.mode = false) : s.ctr.sctlView s.mode = s.ctr.mctl &&& ~~~sHidden := by
    rw [Ctr.sctlView, hV]
    rfl
  have hguest (hV : isV s.mode = true) : s.ctr.sctlView s.mode = s.ctr.vsctlView := by
    rw [Ctr.sctlView, hV]
    rfl
  refine ⟨hread, hvsread.trans s.ctr.vsctlView_shiftRight_32, fun hV => ⟨?sread, ?swrite⟩, fun hV => ⟨?gread, ?gwrite⟩,
    fun k hk => ?mbits, ?mframe, fun k hk => ?vbits, ?vframe⟩
  case sread => rw [hsread, hread, hhost hV, and_not_shiftRight_32 _ (by decide)]
  case swrite => rw [s.writeCsr_sctrcontrolh, s.writeCsr_mctrcontrolh, if_neg (by rw [hV]; decide)]
  case gread => rw [hsread, hvsread, hguest hV]
  case gwrite =>
    have hclr : (coverHigh.getLsbD 7 && (v <<< 32).getLsbD 7) = false := by
      rw [coverHigh_getLsbD_clr, Bool.false_and]
    rw [s.writeCsr_sctrcontrolh, s.writeCsr_vsctrcontrolh, if_pos hV, Ctr.writeVsctl_of_not_clr hclr,
      Ctr.writeVsctl_not_effective]
  case mbits =>
    rw [s.writeCsr_mctrcontrolh, Ctr.writeMctl_high, Ctr.mctlAfter_getLsbD _ _ _ _ _ hk, depthField_coverHigh,
      coverHigh_getLsbD hk, if_neg (fun h => absurd h.1 (by decide))]
    simp only [decide_eq_true_eq, zero_getLsbD, and_true]
    split
    case isTrue h => exact hshift k hk h.2
    case isFalse => rfl
  case mframe => rw [s.writeCsr_mctrcontrolh, Ctr.writeMctl_high]
  case vbits =>
    rw [s.writeCsr_vsctrcontrolh, Ctr.writeVsctl_not_effective]
    rw [Ctr.vsctlAfter_getLsbD _ _ _ _ hk, coverHigh_getLsbD hk]
    simp only [decide_eq_true_eq]
    split
    case isTrue h => exact hshift k hk h.2
    case isFalse => rfl
  case vframe => rw [s.writeCsr_vsctrcontrolh, Ctr.writeVsctl_not_effective]

/-- Settles O38: a protected write differs from that of `mctrcontrol` in the protected bits alone. -/
theorem sctrcontrolHidesMAndMte : Obligations.SctrcontrolHidesMAndMte := by
  intro s v hV _
  have hwrite : s.writeCsr .sctrcontrol v =
      { s with ctr := s.ctr.writeMctl s.cfg s.draws v (coverLow s.x) sHidden } := by
    rw [s.writeCsr_sctrcontrol, hV]
    rfl
  have hdepth := depthField_coverLow s.x
  rw [hwrite, s.writeCsr_mctrcontrol]
  refine ⟨?read, ?m, ?mte, fun k h0 h8 hk => ?others, fun hv => ?clear, fun hv => ?store, ?frame⟩
  case read =>
    rw [s.readCsr_sctrcontrol, Ctr.sctlView, hV]
    exact trunc_and s.x _ _
  case m =>
    rw [Ctr.writeMctl_mctl, Ctr.mctlAfter_getLsbD _ _ _ _ _ (by decide), (sHidden_getLsbD_iff 0).mpr (.inl rfl)]
    simp
  case mte =>
    rw [Ctr.writeMctl_mctl, Ctr.mctlAfter_getLsbD _ _ _ _ _ (by decide), (sHidden_getLsbD_iff 8).mpr (.inr rfl)]
    simp
  case others =>
    have hshown : sHidden.getLsbD k = false :=
      Bool.eq_false_iff.mpr fun h => ((sHidden_getLsbD_iff k).mp h).elim h0 h8
    rw [Ctr.writeMctl_mctl, Ctr.writeMctl_mctl, Ctr.mctlAfter_getLsbD _ _ _ _ _ hk,
      Ctr.mctlAfter_getLsbD _ _ _ _ _ hk, hshown, zero_getLsbD]
  case clear =>
    rw [Ctr.writeMctl_of_clr (clr_of_coverLow s.x hv)]
    exact ⟨Ctr.clear_statusWord .., Ctr.clear_get _ _ _⟩
  case store =>
    rw [Ctr.writeMctl_of_not_clr (clr_of_coverLow s.x hv), Ctr.depth_eq_iff]
    exact ⟨rfl, fun hsame => if_pos hsame⟩
  case frame =>
    rw [Ctr.writeMctl_mctl, ← Ctr.writeMctl_protect hdepth]

/-- Settles O40: from V=1 the write is that of `vsctrcontrol`, with a CLR that is effective. -/
theorem guestSctrcontrolWritesVsctl : Obligations.GuestSctrcontrolWritesVsctl := by
  intro s v hV _
  have hwrite : s.writeCsr .sctrcontrol v =
      { s with ctr := s.ctr.writeVsctl s.cfg s.draws v (coverLow s.x) true } := by
    rw [s.writeCsr_sctrcontrol, hV]
    rfl
  have hread : s.readCsr .sctrcontrol = s.readCsr .vsctrcontrol := by
    rw [s.readCsr_sctrcontrol, s.readCsr_vsctrcontrol, Ctr.sctlView, hV]
    rfl
  rw [hwrite, s.writeCsr_vsctrcontrol]
  refine ⟨hread, ?_⟩
  cases hv : v.getLsbD 7
  case true =>
    rw [Ctr.writeVsctl_of_clr (clr_of_coverLow s.x hv)]
    exact ⟨rfl, rfl, fun _ => ⟨Ctr.clear_statusWord .., Ctr.clear_get _ _ _⟩, rfl, nofun,
      fun hcc => Ctr.clear_count hcc ..⟩
  case false =>
    rw [Ctr.writeVsctl_of_not_clr (clr_of_coverLow s.x hv)]
    exact ⟨rfl, rfl, nofun, rfl, fun _ => rfl, fun _ => ⟨rfl, rfl⟩⟩

/-- WRPTR after a write: the low WRPTR_BITS bits of the value (R134). -/
theorem wrptr_write_toNat (cfg : Config) (v : Word) :
    (v.extractLsb' 0 8 &&& BitVec.ofNat 8 (2 ^ cfg.wrptrBits.val - 1)).toNat = v.toNat % 2 ^ cfg.wrptrBits.val := by
  have hle : cfg.wrptrBits.val ≤ 8 := Nat.le_of_lt_succ cfg.wrptrBits.isLt
  have hpow : 2 ^ cfg.wrptrBits.val ≤ 2 ^ 8 := Nat.pow_le_pow_right (by decide) hle
  have hmask : (BitVec.ofNat 8 (2 ^ cfg.wrptrBits.val - 1)).toNat = 2 ^ cfg.wrptrBits.val - 1 :=
    Nat.mod_eq_of_lt (by omega)
  have hlow : (v.extractLsb' 0 8).toNat = v.toNat % 2 ^ 8 := by
    rw [BitVec.extractLsb'_toNat, Nat.shiftRight_zero]
  rw [BitVec.toNat_and, hmask, hlow, Nat.and_two_pow_sub_one_eq_mod]
  exact Nat.mod_mod_of_dvd _ (Nat.pow_dvd_pow 2 hle)

/-- Settles O41: both names reach the one status, which is stored field by field. -/
theorem mctrstatusReadsAndWrites : Obligations.MctrstatusReadsAndWrites := by
  intro s v
  have hread : s.readCsr .mctrstatus = s.ctr.statusWord := by simp [State.readCsr, aliasOf]
  have hsread : s.readCsr .sctrstatus = s.ctr.statusWord := by simp [State.readCsr, aliasOf]
  have hwrite : s.writeCsr .mctrstatus v = { s with ctr := s.ctr.writeStatus s.cfg v } := by
    simp [State.writeCsr, aliasOf]
  have hswrite : s.writeCsr .sctrstatus v = { s with ctr := s.ctr.writeStatus s.cfg v } := by
    simp [State.writeCsr, aliasOf]
  rw [hread, hsread, hwrite, hswrite]
  exact ⟨fun k _ => s.ctr.statusWord_getLsbD k, rfl, wrptr_write_toNat s.cfg v, rfl, rfl⟩

end Sys2Proof.Machine
end

section
/-! The general registers and the effective widths (spec/00_scope.md R9, R11; spec/10_state.md R22). -/

namespace Sys2Proof.Machine

theorem trunc_toNat (x : Xlen) (v : Word) : (trunc x v).toNat = v.toNat % 2 ^ (if x = .x32 then 32 else 64) := by
  cases x
  case x32 =>
    simp only [trunc, BitVec.toNat_setWidth, if_true]
    omega
  case x64 => exact (Nat.mod_eq_of_lt v.isLt).symm

/-- XLEN by mode: with MXLEN 32 every mode has 32, and M-mode and Debug Mode always have MXLEN (R9, D16). -/
theorem xlenOf_eq (cfg : Config) (m : Mode) : xlenOf cfg m =
    if cfg.mxlen = .x32 ∨ m = .M ∨ m = .Debug then cfg.mxlen
    else if m = .S then cfg.sxlen else if m = .U then cfg.uxlen else if m = .VS then cfg.vsxlen else cfg.vuxlen := by
  cases hmx : cfg.mxlen <;> cases m <;> simp [xlenOf, atMost, hmx]

/-- Settles O47: a written register reads back by `State.reg_setReg_same`, the others by `State.regs_setReg_other`. -/
theorem registerZeroIsHardwired : Obligations.RegisterZeroIsHardwired :=
  ⟨trunc_toNat, xlenOf_eq, fun s _ v hv =>
    ⟨s.reg_zero, rfl, fun hr => (s.reg_setReg_same hr v).trans hv, fun _ hq => s.regs_setReg_other hq v⟩⟩

end Sys2Proof.Machine
end

section
/-! The recorder's invariant (spec/10_state.md R71; log 38): every event of the hart and every write of a register keeps
the bits that do not exist at 0, a supported DEPTH and WRPTR within its bits. -/

namespace Sys2Proof

/-- The ranges among the constraints of R9: depths in order, and a write pointer that indexes the greatest of them. -/
theorem Config.wf_ranges {cfg : Config} (hwf : cfg.wf = true) :
    cfg.depthMin.rank ≤ cfg.depthMax.rank ∧ cfg.depthMax.rank + 4 ≤ cfg.wrptrBits.val := by
  simp only [Config.wf, Bool.and_eq_true, decide_eq_true_eq] at hwf
  exact hwf.1

end Sys2Proof

namespace Sys2Proof.Machine

/-! ### Words within a mask -/

/-- A word has no bit outside a mask. -/
theorem and_not_eq_zero_iff (v mask : Word) :
    v &&& ~~~mask = 0 ↔ ∀ k, k < 64 → v.getLsbD k = true → mask.getLsbD k = true := by
  have hbit (k : Nat) (hk : k < 64) :
      (v &&& ~~~mask).getLsbD k = false ↔ (v.getLsbD k = true → mask.getLsbD k = true) := by
    rw [BitVec.getLsbD_and, BitVec.getLsbD_not, decide_eq_true hk]
    cases v.getLsbD k <;> cases mask.getLsbD k <;> simp
  constructor
  · intro h k hk
    rw [← hbit k hk, h]
    exact zero_getLsbD k
  · intro h
    apply BitVec.eq_of_getLsbD_eq
    intro k hk
    exact ((hbit k hk).mpr (h k hk)).trans (zero_getLsbD k).symm

theorem mergeBits_within {old cover mask : Word} (hold : old &&& ~~~mask = 0) (v : Word)
    (hcover : ∀ k, k < 64 → cover.getLsbD k = true → mask.getLsbD k = true) :
    mergeBits old v cover &&& ~~~mask = 0 := by
  rw [and_not_eq_zero_iff] at hold ⊢
  intro k hk hbit
  rw [mergeBits_getLsbD old v cover hk] at hbit
  split at hbit
  case isTrue hc => exact hcover k hk hc
  case isFalse => exact hold k hk hbit

theorem mxMask_getLsbD (cfg : Config) (k : Nat) : (mxMask cfg).getLsbD k = decide (k < xbits cfg.mxlen) :=
  coverLow_getLsbD cfg.mxlen k

theorem tgtMask_getLsbD_iff (cfg : Config) {k : Nat} (hk : k < 64) :
    (tgtMask cfg).getLsbD k = true ↔ k < xbits cfg.mxlen ∧ (cfg.hasMisp = true ∨ k ≠ 0) := by
  have hone : (1 : Word) = bitIf true 0 := rfl
  rw [tgtMask, BitVec.getLsbD_and, mxMask_getLsbD, Bool.and_eq_true, decide_eq_true_eq]
  cases cfg.hasMisp
  case true => simp only [if_true, BitVec.getLsbD_allOnes, hk, decide_true, true_or]
  case false =>
    simp only [Bool.false_eq_true, if_false, BitVec.getLsbD_not, hone, bitIf_getLsbD true (by decide : 0 < 64), hk,
      decide_true, Bool.true_and, Bool.not_eq_true', decide_eq_false_iff_not, false_or, ne_eq, eq_comm (a := 0)]

/-! ### Addresses -/

theorem xbits_xlenOf_le (cfg : Config) (m : Mode) : xbits (xlenOf cfg m) ≤ xbits cfg.mxlen := by
  cases hmx : cfg.mxlen
  case x32 => cases m <;> simp [xlenOf, atMost, hmx]
  case x64 => exact xbits_le _

/-- A PC field holds XLEN - 1 bits, so MXLEN - 1. -/
theorem pcField_toNat_lt (cfg : Config) (m : Mode) (pc : Word) :
    (pcField cfg (xlenOf cfg m) pc).toNat < 2 ^ (xbits cfg.mxlen - 1) :=
  Nat.lt_of_lt_of_le (legalizeVa_toNat_lt cfg (extract_pc_lt (trunc_trunc _ _)))
    (Nat.pow_le_pow_right (by decide) (Nat.sub_le_sub_right (xbits_xlenOf_le cfg m) 1))

/-- An address register of MXLEN bits. -/
theorem append_bit0_getLsbD_lt {x : Xlen} {a : BitVec 63} (ha : a.toNat < 2 ^ (xbits x - 1)) {b : Bool} {k : Nat}
    (hk : (a ++ BitVec.ofBool b : Word).getLsbD k = true) : k < xbits x := by
  rw [← trunc_append_bit0 x ha b, trunc_getLsbD, Bool.and_eq_true, decide_eq_true_eq] at hk
  exact hk.1

theorem append_bit0_getLsbD_zero (a : BitVec 63) (b : Bool) : (a ++ BitVec.ofBool b : Word).getLsbD 0 = b := by
  rw [BitVec.getLsbD_append]
  exact BitVec.getLsbD_ofBool b 0

section
variable {cfg : Config} {w : Word} (hw : ∀ k, k < 64 → w.getLsbD k = true → k < xbits cfg.mxlen)
include hw

theorem srcMask_of_width : w &&& ~~~srcMask cfg = 0 := by
  rw [and_not_eq_zero_iff]
  intro k hk hbit
  rw [srcMask, mxMask_getLsbD]
  exact decide_eq_true (hw k hk hbit)

/-- Bit 0 of `ctrtarget` is MISP (R53). -/
theorem tgtMask_of_width (hmisp : w.getLsbD 0 = true → cfg.hasMisp = true) : w &&& ~~~tgtMask cfg = 0 := by
  rw [and_not_eq_zero_iff]
  intro k hk hbit
  refine (tgtMask_getLsbD_iff cfg hk).mpr ⟨hw k hk hbit, ?_⟩
  rcases Nat.eq_zero_or_pos k with rfl | hpos
  · exact .inl (hmisp hbit)
  · exact .inr hpos.ne'

end

/-- A software write fills no bit above MXLEN (R154, D20). -/
theorem writeAddr_getLsbD_lt (cfg : Config) (ev : Nat) (m : Mode) (v : Word) (b : Bool) {k : Nat} (hk : k < 64)
    (hbit : (writeAddr cfg ev (xlenOf cfg m) v b).getLsbD k = true) : k < xbits cfg.mxlen := by
  have hfield := legalizeVa_toNat_lt cfg (extract_pc_lt (trunc_trunc (xlenOf cfg m) v))
  unfold writeAddr at hbit
  dsimp only at hbit
  split at hbit
  case isTrue h =>
    rw [h.2]
    exact hk
  case isFalse => exact Nat.lt_of_lt_of_le (append_bit0_getLsbD_lt hfield hbit) (xbits_xlenOf_le cfg m)

theorem writeAddr_getLsbD_zero (cfg : Config) (ev : Nat) (x : Xlen) (v : Word) (b : Bool) :
    (writeAddr cfg ev x v b).getLsbD 0 = b := by
  unfold writeAddr
  dsimp only
  split
  case isTrue =>
    rw [joinHalves, BitVec.getLsbD_append, if_pos (by decide), BitVec.getLsbD_extractLsb', append_bit0_getLsbD_zero]
    rfl
  case isFalse => exact append_bit0_getLsbD_zero _ b

/-! ### Entries -/

/-- The code of a count keeps to the implemented bits of CCE (R56, R282). -/
theorem ccEncode_getLsbD_lt {cfg : Config} {n k : Nat} (hk : (ccEncode cfg n).getLsbD k = true) :
    k < 12 + cfg.cceBits.val := by
  have hpos : 0 < 2 ^ cfg.cceBits.val := Nat.two_pow_pos _
  have hlt : (ccEncode cfg n).toNat < 2 ^ (12 + cfg.cceBits.val) := by
    rw [ccEncode_toNat, Nat.pow_add]
    refine Nat.lt_of_le_of_lt (Nat.min_le_right _ _) ?_
    unfold ccTop
    omega
  refine (Nat.pow_lt_pow_iff_right (by decide : 1 < 2)).mp (Nat.lt_of_le_of_lt ?_ hlt)
  exact Nat.ge_two_pow_of_testBit hk

theorem Ctr.recordData_within (cfg : Config) (c : Ctr) (ras : Bool) (type : BitVec 4) :
    c.recordData cfg ras type &&& ~~~dataMask cfg = 0 := by
  rw [and_not_eq_zero_iff]
  intro k _ hbit
  rw [c.recordData_getLsbD] at hbit
  rw [dataMask_getLsbD]
  split_ifs at hbit with htype hccv hcc
  · simp_all
  · simp_all
  · obtain ⟨hhas, hcode⟩ := Bool.and_eq_true_iff.mp hbit
    have hlt := ccEncode_getLsbD_lt hcode
    simp only [hhas, Bool.and_true, Bool.or_eq_true, decide_eq_true_eq]
    omega

theorem Ctr.makeRecord_inv {cfg : Config} (c : Ctr) (ras : Bool) (type : BitVec 4) {s t : BitVec 63}
    (hs : s.toNat < 2 ^ (xbits cfg.mxlen - 1)) (ht : t.toNat < 2 ^ (xbits cfg.mxlen - 1)) (misp : Bool) :
    (c.makeRecord cfg ras type s t misp).Inv cfg where
  src := srcMask_of_width fun _ _ hbit => append_bit0_getLsbD_lt (b := true) hs hbit
  tgt := tgtMask_of_width (fun _ _ hbit => append_bit0_getLsbD_lt ht hbit) fun hbit =>
    (Bool.and_eq_true_iff.mp ((append_bit0_getLsbD_zero ..).symm.trans hbit)).2
  data := c.recordData_within cfg ras type

/-- Clearing V keeps the other bits (R302). -/
theorem Entry.Inv.invalidate {cfg : Config} {e : Entry} (h : e.Inv cfg) : e.invalidate.Inv cfg where
  src := by
    change e.src &&& ~~~(1 : Word) &&& ~~~srcMask cfg = 0
    rw [BitVec.and_assoc, BitVec.and_comm (~~~(1 : Word)), ← BitVec.and_assoc, h.src]
    exact BitVec.zero_and
  tgt := h.tgt
  data := h.data

/-- A register of an entry after a write, in a mode of the hart (R154 to R157). -/
theorem Entry.Inv.write {cfg : Config} {e : Entry} (h : e.Inv cfg) (ev : Nat) (m : Mode) (r : IReg) (v : Word) :
    (Entry.write cfg ev (xlenOf cfg m) r v e).Inv cfg := by
  have hwidth (b : Bool) := fun k hk hbit => writeAddr_getLsbD_lt cfg ev m v b (k := k) hk hbit
  cases r with
  | src => exact ⟨srcMask_of_width (hwidth _), h.tgt, h.data⟩
  | tgt =>
    refine ⟨h.src, tgtMask_of_width (hwidth _) fun hbit => ?_, h.data⟩
    exact (Bool.and_eq_true_iff.mp ((writeAddr_getLsbD_zero ..).symm.trans hbit)).2
  | data => exact ⟨h.src, h.tgt, and_and_not_self _ _⟩
  | zero => exact h

/-! ### Updates of the array -/

/-- The depth of a supported encoding is a power of 2, in the order of R32. -/
theorem depth_of_rank (d : DepthCode) : 16 * ((depthBits d).toNat + 1) = 2 ^ (d.rank + 4) := by cases d <;> decide

section
variable {cfg : Config} {c : Ctr}

theorem Ctr.Inv.depth_le (h : c.Inv cfg) : c.depth ≤ maxDepth cfg := by
  obtain ⟨d, hd, hfield⟩ := h.depth
  obtain ⟨-, hmax⟩ := (depthSupported_iff cfg d).mp hd
  rw [Ctr.depth, hfield, maxDepth, depth_of_rank, depth_of_rank]
  exact Nat.pow_le_pow_right (by decide) (Nat.add_le_add_right hmax 4)

/-- WRPTR holds every slot below the depth (R9). -/
theorem Ctr.Inv.depth_le_wrptr (h : c.Inv cfg) (hwf : cfg.wf = true) : c.depth ≤ 2 ^ cfg.wrptrBits.val := by
  refine Nat.le_trans h.depth_le ?_
  rw [maxDepth, depth_of_rank]
  exact Nat.pow_le_pow_right (by decide) (Config.wf_ranges hwf).2

/-- An update keeps the invariant that keeps the control registers, moves WRPTR within its bits and writes only entries
that exist, within their bits. -/
theorem Ctr.Inv.update (h : c.Inv cfg) {d : Ctr} (hmctl : d.mctl = c.mctl) (hvsctl : d.vsctl = c.vsctl)
    (hwrptr : d.wrptr.toNat < 2 ^ cfg.wrptrBits.val)
    (harr : ∀ p : Fin 256, d.arr.get p = c.arr.get p ∨ p.val < c.depth ∧ (d.arr.get p).Inv cfg) : d.Inv cfg where
  mctl := by rw [hmctl, h.mctl]
  vsctl := by rw [hvsctl, h.vsctl]
  depth := by rw [hmctl]; exact h.depth
  wrptr := hwrptr
  entry p := by
    rcases harr p with heq | ⟨-, hinv⟩
    · rw [heq]
      exact h.entry p
    · exact hinv
  absent p hp := by
    rcases harr p with heq | ⟨hlt, -⟩
    · rw [heq, h.absent p hp]
    · exact absurd (Nat.lt_of_lt_of_le hlt h.depth_le) (Nat.not_lt.mpr hp)

/-- An update that keeps WRPTR and the array too, whatever it does to the flags and the counter. -/
theorem Ctr.Inv.congr (h : c.Inv cfg) {d : Ctr} (hmctl : d.mctl = c.mctl) (hvsctl : d.vsctl = c.vsctl)
    (hwrptr : d.wrptr = c.wrptr) (harr : d.arr = c.arr) : d.Inv cfg :=
  h.update hmctl hvsctl (hwrptr ▸ h.wrptr) fun _ => .inl (by rw [harr])

/-- One entry written below the depth. -/
theorem get_set_cases {e : Entry} (he : e.Inv cfg) {q : Fin 256} (hq : q.val < c.depth) (p : Fin 256) :
    (c.arr.set q e).get p = c.arr.get p ∨ p.val < c.depth ∧ ((c.arr.set q e).get p).Inv cfg := by
  by_cases hpq : q = p
  case pos =>
    subst hpq
    have hget : (c.arr.set q e).get q = e := Vector.getElem_set_self _
    exact .inr ⟨hq, by rwa [hget]⟩
  case neg => exact .inl (Vector.getElem_set_ne _ _ fun hval => hpq (Fin.ext hval))

/-! ### The events of the hart -/

theorem Ctr.Inv.push (h : c.Inv cfg) (hwf : cfg.wf = true) {e : Entry} (he : e.Inv cfg) : (c.push cfg e).Inv cfg := by
  refine h.update rfl rfl ?_ (get_set_cases he c.wp_lt)
  rw [Ctr.push_wrptr_toNat]
  exact Nat.lt_of_lt_of_le (Nat.mod_lt _ c.depth_pos) (h.depth_le_wrptr hwf)

theorem Ctr.Inv.rasPop (h : c.Inv cfg) (hwf : cfg.wf = true) : (c.rasPop cfg).Inv cfg := by
  refine h.update (c.rasPop_mctl cfg) (c.rasPop_vsctl cfg) ?_ (get_set_cases (h.entry _).invalidate (c.phys_lt 0))
  rw [Ctr.rasPop_wrptr_toNat]
  exact Nat.lt_of_lt_of_le (c.phys_lt 0) (h.depth_le_wrptr hwf)

theorem Ctr.Inv.rasSwap (h : c.Inv cfg) {s t : BitVec 63} (hs : s.toNat < 2 ^ (xbits cfg.mxlen - 1))
    (ht : t.toNat < 2 ^ (xbits cfg.mxlen - 1)) (misp : Bool) : (c.rasSwap cfg s t misp).Inv cfg :=
  h.update rfl rfl h.wrptr (get_set_cases (Ctr.makeRecord_inv _ true _ hs ht misp) (c.phys_lt 0))

theorem Ctr.Inv.settle (h : c.Inv cfg) (m : Mode) : (c.settle cfg m).Inv cfg :=
  h.congr (c.settle_mctl cfg m) (c.settle_vsctl cfg m) (c.settle_wrptr cfg m) (c.settle_arr cfg m)

theorem Ctr.Inv.onRetire (h : c.Inv cfg) (hwf : cfg.wf = true) (k : Kind) (m : Mode) (pc target : Word) (misp : Bool) :
    (c.onRetire cfg k m pc target misp).Inv cfg := by
  have hs := pcField_toNat_lt cfg m pc
  have ht := pcField_toNat_lt cfg m target
  rcases c.onRetire_cases cfg k m pc target misp with heq | ⟨ras, heq⟩ | heq | heq <;> rw [heq]
  · exact h
  · exact h.push hwf (c.makeRecord_inv ras _ hs ht misp)
  · exact h.rasPop hwf
  · exact h.rasSwap hs ht misp

/-- The PC that a record leaves out is 0 (log 28). -/
theorem pcField_or_zero_toNat_lt {m : Mode} {pc : Word} {a : BitVec 63}
    (ha : a = 0 ∨ a = pcField cfg (xlenOf cfg m) pc) : a.toNat < 2 ^ (xbits cfg.mxlen - 1) := by
  rcases ha with rfl | rfl
  · exact Nat.two_pow_pos _
  · exact pcField_toNat_lt cfg m pc

theorem Ctr.Inv.onTrap (h : c.Inv cfg) (hwf : cfg.wf = true) (isInt : Bool) (cause : BitVec 6) (sm tm : Mode)
    (epc handler : Word) (misp : Bool) : (c.onTrap cfg isInt cause sm tm epc handler misp).Inv cfg := by
  rcases c.onTrap_cases cfg isInt cause sm tm epc handler misp with heq | heq | ⟨ty, s, t, hs, ht, heq⟩ <;> rw [heq]
  · exact h
  · exact h.congr rfl rfl rfl rfl
  · exact h.push hwf (c.makeRecord_inv false ty (pcField_or_zero_toNat_lt hs) (pcField_or_zero_toNat_lt ht) misp)

theorem Ctr.Inv.onTrapReturn (h : c.Inv cfg) (hwf : cfg.wf = true) (sm tm : Mode) (pc target : Word) (misp : Bool) :
    (c.onTrapReturn cfg sm tm pc target misp).Inv cfg := by
  rcases c.onTrapReturn_cases cfg sm tm pc target misp with heq | ⟨t, ht, heq⟩ <;> rw [heq]
  · exact h
  · exact h.push hwf
      (c.makeRecord_inv false _ (pcField_toNat_lt cfg sm pc) (pcField_or_zero_toNat_lt ht) misp)

theorem Ctr.Inv.onTick (h : c.Inv cfg) (m : Mode) : (c.onTick cfg m).Inv cfg := by
  rw [c.onTick_eq cfg m]
  split_ifs
  · exact h
  · exact h.congr rfl rfl rfl rfl
  · exact h.congr rfl rfl rfl rfl

theorem Ctr.Inv.onCounterStop (h : c.Inv cfg) : (c.onCounterStop cfg).Inv cfg := by
  rw [c.onCounterStop_eq cfg]
  exact h.congr rfl rfl rfl rfl

/-! ### Writes of the registers -/

/-- DEPTH stands beside the implemented one-bit fields (R25). -/
theorem mctlMask_getLsbD_iff (cfg : Config) {k : Nat} (hk : k < 64) :
    (maskM cfg ||| 0xF0000).getLsbD k = true ↔ (maskM cfg).getLsbD k = true ∨ 16 ≤ k ∧ k < 20 := by
  have hdepth : ∀ n : Fin 64, (0xF0000 : Word).getLsbD n.val = decide (16 ≤ n.val ∧ n.val < 20) := by decide
  rw [BitVec.getLsbD_or, Bool.or_eq_true, hdepth ⟨k, hk⟩, decide_eq_true_eq]

theorem setDepthField_within {w : Word} (hw : ∀ k, k < 64 → w.getLsbD k = true → (maskM cfg).getLsbD k = true)
    (d : BitVec 4) : setDepthField w d &&& ~~~(maskM cfg ||| 0xF0000) = 0 := by
  rw [and_not_eq_zero_iff]
  intro k hk hbit
  rw [setDepthField_getLsbD _ _ hk] at hbit
  rw [mctlMask_getLsbD_iff cfg hk]
  split at hbit
  case isTrue hdepth => exact .inr hdepth
  case isFalse => exact .inl (hw k hk hbit)

theorem Ctr.Inv.mctlAfter_within (h : c.Inv cfg) (v cover protect : Word) :
    c.mctlAfter cfg v cover protect &&& ~~~(maskM cfg ||| 0xF0000) = 0 := by
  have hold := (and_not_eq_zero_iff _ _).mp h.mctl
  rw [and_not_eq_zero_iff]
  intro k hk hbit
  rw [Ctr.mctlAfter_getLsbD _ _ _ _ _ hk] at hbit
  split_ifs at hbit with hdepth hwritten
  · exact (mctlMask_getLsbD_iff cfg hk).mpr (.inr hdepth.2)
  · exact (mctlMask_getLsbD_iff cfg hk).mpr (.inl hwritten.1)
  · exact hold k hk hbit

/-- What is stored of a write of `mctrcontrol`; the array is not looked at (R122). -/
theorem Ctr.Inv.store_mctl (h : c.Inv cfg) (hwf : cfg.wf = true) (v cover protect : Word) :
    Ctr.Inv cfg { c with mctl := c.mctlAfter cfg v cover protect } where
  mctl := h.mctlAfter_within v cover protect
  vsctl := h.vsctl
  depth := by
    rw [Ctr.depthField_mctlAfter]
    split
    case isTrue => exact ⟨_, depthSupported_legalizeDepth (Config.wf_ranges hwf).1 _, rfl⟩
    case isFalse => exact h.depth
  wrptr := h.wrptr
  entry := h.entry
  absent := h.absent

theorem Ctr.Inv.clear (h : c.Inv cfg) (ev : Nat) : (c.clear cfg ev).Inv cfg where
  mctl := by rw [Ctr.clear_mctl, h.mctl]
  vsctl := by rw [Ctr.clear_vsctl, h.vsctl]
  depth := by rw [Ctr.clear_mctl]; exact h.depth
  wrptr := by rw [Ctr.clear_wrptr]; exact Nat.two_pow_pos _
  entry p := by rw [Ctr.clear_get]; exact Entry.zero_inv cfg
  absent p _ := Ctr.clear_get cfg ev c p

theorem Ctr.Inv.depthChange (h : c.Inv cfg) (ev : Nat) : (c.depthChange cfg ev).Inv cfg where
  mctl := by rw [Ctr.depthChange_mctl, h.mctl]
  vsctl := by rw [Ctr.depthChange_vsctl, h.vsctl]
  depth := by rw [Ctr.depthChange_mctl]; exact h.depth
  wrptr := by rw [Ctr.depthChange_wrptr]; exact h.wrptr
  entry p := by rw [Ctr.depthChange_arr]; exact drawArray_inv cfg ev p
  absent p hp := by rw [Ctr.depthChange_arr]; exact drawArray_absent ev hp

theorem Ctr.Inv.writeMctl (h : c.Inv cfg) (hwf : cfg.wf = true) (ev : Nat) (v cover protect : Word) :
    (c.writeMctl cfg ev v cover protect).Inv cfg := by
  have hstored := h.store_mctl hwf v cover protect
  rcases c.writeMctl_cases cfg ev v cover protect with ⟨-, heq⟩ | ⟨-, ⟨-, heq⟩ | ⟨-, heq⟩⟩ <;> rw [heq]
  · exact hstored.clear ev
  · exact hstored.depthChange ev
  · exact hstored

theorem Ctr.Inv.store_vsctl (h : c.Inv cfg) (v cover : Word) :
    Ctr.Inv cfg { c with vsctl := c.vsctlAfter cfg v cover } where
  mctl := h.mctl
  vsctl := mergeBits_within h.vsctl v fun k _ hbit => by
    rw [BitVec.getLsbD_and, Bool.and_eq_true] at hbit
    exact hbit.1
  depth := h.depth
  wrptr := h.wrptr
  entry := h.entry
  absent := h.absent

theorem Ctr.Inv.writeVsctl (h : c.Inv cfg) (ev : Nat) (v cover : Word) (eff : Bool) :
    (c.writeVsctl cfg ev v cover eff).Inv cfg := by
  have hstored := h.store_vsctl v cover
  rcases c.writeVsctl_cases cfg ev v cover eff with ⟨-, heq⟩ | ⟨-, heq⟩ <;> rw [heq]
  · exact hstored.clear ev
  · exact hstored

/-- A WRPTR of any value is within its bits (R134). -/
theorem wrptr_write_lt (cfg : Config) (v : Word) :
    (v.extractLsb' 0 8 &&& BitVec.ofNat 8 (2 ^ cfg.wrptrBits.val - 1)).toNat < 2 ^ cfg.wrptrBits.val := by
  rw [wrptr_write_toNat]
  exact Nat.mod_lt _ (Nat.two_pow_pos _)

theorem Ctr.Inv.writeStatus (h : c.Inv cfg) (v : Word) : (c.writeStatus cfg v).Inv cfg :=
  h.update rfl rfl (wrptr_write_lt cfg v) fun _ => .inl rfl

theorem Ctr.Inv.writeEntry (h : c.Inv cfg) (ev : Nat) (m : Mode) (r : IReg) (i : Nat) (v : Word) :
    (c.writeEntry cfg ev (xlenOf cfg m) r i v).Inv cfg := by
  rcases Nat.lt_or_ge i c.depth with hi | hi
  · rw [Ctr.writeEntry_of_lt _ _ _ _ hi]
    exact h.update rfl rfl h.wrptr (get_set_cases ((h.entry _).write ev m r v) (c.phys_lt i))
  · rw [Ctr.writeEntry_of_depth_le _ _ _ _ hi]
    exact h

/-! ### Reset -/

/-- What the Reset event draws is within the invariant, whatever was there (R380). -/
theorem drawCtr_inv (hwf : cfg.wf = true) (ev : Nat) (c : Ctr) : (drawCtr cfg ev c).Inv cfg where
  mctl := setDepthField_within (fun _ _ hbit => (Bool.and_eq_true_iff.mp ((BitVec.getLsbD_and ..).symm.trans hbit)).2) _
  vsctl := and_and_not_self _ _
  depth := ⟨_, depthSupported_legalizeDepth (Config.wf_ranges hwf).1 _, depthField_setDepthField _ _⟩
  wrptr := wrptr_write_lt cfg (draw ev 4)
  entry := drawArray_inv cfg ev
  absent _ hp := drawArray_absent ev hp

theorem Ctr.reset_inv : Ctr.reset.Inv resetConfig where
  mctl := BitVec.zero_and
  vsctl := BitVec.zero_and
  depth := ⟨.d16, rfl, rfl⟩
  wrptr := by decide
  entry p := by
    have hget : Ctr.reset.arr.get p = Entry.zero := Vector.getElem_replicate _
    rw [hget]
    exact Entry.zero_inv resetConfig
  absent p _ := Vector.getElem_replicate _

end

/-- Settles O16: Reset draws the recorder within R71, and sets the host's part outright. -/
theorem resetEventLeavesInvariant : Obligations.ResetEventLeavesInvariant := by
  intro s es henv hwf
  refine ⟨_, step_of_event henv (by simp), rfl, rfl, rfl, ?_⟩
  exact (drawCtr_inv hwf _ _).settle .M

end Sys2Proof.Machine
end

section
/-! The machine's invariant and frame (spec/10_state.md R71; spec/20_memory.md R82; logs 2, 6, 7, 11, 35, 42, 43): what
each step leaves, said once as the exact state, and that it keeps the invariant, the parameters and the memory. -/

namespace Sys2Proof.Machine

/-! ### Addresses an instruction can stand at -/

/-- The alignment of instructions: 2 with the C extension, else 4 (R105, log 18). -/
def codeAlign (cfg : Config) : Nat := if cfg.hasC then 2 else 4

/-- An address of XLEN bits that the pc can hold (log 43). -/
structure CodeAddr (cfg : Config) (x : Xlen) (a : Word) : Prop where
  width : trunc x a = a
  align : a &&& ~~~epcMask cfg = 0

theorem codeAlign_cases (cfg : Config) :
    cfg.hasC = true ∧ codeAlign cfg = 2 ∨ cfg.hasC = false ∧ codeAlign cfg = 4 := by
  unfold codeAlign
  cases cfg.hasC <;> simp

theorem and_low_eq_zero_iff (a : Word) {n : Nat} (hn : n ≤ 2) :
    a &&& BitVec.ofNat 64 (2 ^ n - 1) = 0 ↔ a.toNat % 2 ^ n = 0 := by
  have hpow : 2 ^ n ≤ 2 ^ 2 := Nat.pow_le_pow_right (by decide) hn
  have hmask : (BitVec.ofNat 64 (2 ^ n - 1)).toNat = 2 ^ n - 1 := Nat.mod_eq_of_lt (by omega)
  rw [← BitVec.toNat_inj, BitVec.toNat_and, hmask, Nat.and_two_pow_sub_one_eq_mod]
  rfl

theorem align_iff (cfg : Config) (a : Word) : a &&& ~~~epcMask cfg = 0 ↔ a.toNat % codeAlign cfg = 0 := by
  unfold epcMask codeAlign
  cases cfg.hasC
  case true =>
    simp only [if_true, BitVec.not_not]
    exact and_low_eq_zero_iff a (n := 1) (by decide)
  case false =>
    simp only [Bool.false_eq_true, if_false, BitVec.not_not]
    exact and_low_eq_zero_iff a (n := 2) (by decide)

/-- Cutting to XLEN bits keeps the alignment. -/
theorem codeAddr_trunc {cfg : Config} {a : Word} (ha : a.toNat % codeAlign cfg = 0) (x : Xlen) :
    CodeAddr cfg x (trunc x a) where
  width := trunc_trunc x a
  align := by
    rw [align_iff, trunc_toNat]
    rcases codeAlign_cases cfg with ⟨-, hc⟩ | ⟨-, hc⟩ <;> cases x <;> simp only [hc] at ha ⊢ <;> split_ifs <;> omega

/-- What the host makes of an address when it returns (R217, log 18). -/
theorem codeAddr_epc (cfg : Config) (x : Xlen) (a : Word) : CodeAddr cfg x (trunc x (a &&& epcMask cfg)) :=
  codeAddr_trunc ((align_iff cfg _).mp (and_and_not_self a _)) x

/-- A handler's address is a multiple of 4 (R360). -/
theorem codeAddr_handlerAddr (cfg : Config) (x : Xlen) (tvec : Word) (isInt : Bool) (cause : BitVec 6) :
    CodeAddr cfg x (handlerAddr x tvec isInt cause) := by
  have hbase : (tvec &&& ~~~(3 : Word)).toNat % 4 = 0 := by
    refine (and_low_eq_zero_iff _ (n := 2) (by decide)).mp ?_
    rw [← BitVec.not_not (b := BitVec.ofNat 64 (2 ^ 2 - 1))]
    exact and_and_not_self tvec _
  have hoffset (b : Prop) [Decidable b] :
      (if b then BitVec.ofNat 64 (4 * cause.toNat) else 0 : Word).toNat % 4 = 0 := by
    split
    case isTrue =>
      rw [BitVec.toNat_ofNat]
      omega
    case isFalse => rfl
  rw [handlerAddr_eq]
  apply codeAddr_trunc
  have hsum := hoffset (isInt = true ∧ tvec.getLsbD 0 = true)
  rcases codeAlign_cases cfg with ⟨-, hc⟩ | ⟨-, hc⟩ <;> rw [hc, BitVec.toNat_add] <;> omega

/-- A target that a jump or branch names: XLEN bits, and even (R260, R261). -/
def State.EvenTarget (s : State) (a : Word) : Prop := trunc s.x a = a ∧ a.toNat % 2 = 0

section
variable {s : State}

theorem State.Inv.codeAddr (h : s.Inv) : CodeAddr s.cfg s.x s.pc := ⟨h.pc, h.align⟩

/-- The instruction after one whose length the alignment divides. -/
theorem State.Inv.codeAddr_pcNext (h : s.Inv) {n : Nat} (hn : n % codeAlign s.cfg = 0) :
    CodeAddr s.cfg s.x (s.pcNext n) := by
  have hpc := (align_iff s.cfg s.pc).mp h.align
  apply codeAddr_trunc
  rcases codeAlign_cases s.cfg with ⟨-, hc⟩ | ⟨-, hc⟩ <;> rw [hc] at hn hpc ⊢ <;>
    rw [BitVec.toNat_add, BitVec.toNat_ofNat] <;> omega

theorem State.Inv.pc_even (h : s.Inv) : s.pc.toNat % 2 = 0 := by
  have hpc := (align_iff s.cfg s.pc).mp h.align
  rcases codeAlign_cases s.cfg with ⟨-, hc⟩ | ⟨-, hc⟩ <;> rw [hc] at hpc <;> omega

theorem toNat_mod_two_eq_zero_iff {n : Nat} (v : BitVec n) : v.toNat % 2 = 0 ↔ v.getLsbD 0 = false := by
  rw [BitVec.getLsbD, Nat.testBit_zero, decide_eq_false_iff_not]
  omega

/-- An even offset gives an even target of XLEN bits. -/
theorem State.Inv.pcPlus_even (h : s.Inv) {n : Nat} {off : BitVec n} (hn : 0 < n) (hoff : off.getLsbD 0 = false) :
    s.EvenTarget (s.pcPlus off) := by
  have hpc := h.pc_even
  have hext : (off.signExtend 64).toNat % 2 = 0 := by
    rw [toNat_mod_two_eq_zero_iff, BitVec.getLsbD_signExtend, if_pos hn, hoff, Bool.and_false]
  refine ⟨trunc_trunc s.x _, ?_⟩
  rw [State.pcPlus, trunc_toNat, BitVec.toNat_add]
  split_ifs <;> omega

theorem State.jalrTarget_even (s : State) (rs1 : Reg) (imm : BitVec 12) :
    s.EvenTarget (s.jalrTarget rs1 imm) := by
  unfold State.jalrTarget evenAddr
  refine ⟨by rw [trunc_and, trunc_trunc], ?_⟩
  refine (and_low_eq_zero_iff _ (n := 1) (by decide)).mp ?_
  rw [← BitVec.not_not (b := BitVec.ofNat 64 (2 ^ 1 - 1))]
  exact and_and_not_self _ _

/-- An even target that the hart does not trap on (R260, log 37). -/
theorem State.codeAddr_of_not_misaligned {a : Word} (ha : s.EvenTarget a)
    (hmis : s.misaligned a = false) : CodeAddr s.cfg s.x a := by
  obtain ⟨hwidth, heven⟩ := ha
  refine ⟨hwidth, (align_iff s.cfg a).mpr ?_⟩
  rcases codeAlign_cases s.cfg with ⟨-, hc⟩ | ⟨hC, hc⟩ <;> rw [hc]
  · exact heven
  · have hlow : a.extractLsb' 0 2 = 0 := by simpa [State.misaligned, hC] using hmis
    have hmod := congrArg BitVec.toNat hlow
    rwa [BitVec.extractLsb'_toNat, Nat.shiftRight_zero] at hmod

end

/-! ### What an instruction leaves -/

/-- The four things an instruction can do, as the exact state: trap, retire a transfer with a link, return from a trap,
or access a register. Where the machine's invariant holds, transfers go to addresses and returns to modes it allows. -/
inductive State.Result (s : State) (i : Instr) : State → Prop where
  | trap (e : Exc) : Result s i (s.trapInto false e (s.trapTarget false e.cause))
  | transfer (k : Kind) (target : Word) (rd : Reg) (link : Word)
      (htarget : s.Inv → i.wf = true → CodeAddr s.cfg s.x target) : Result s i ((s.setReg rd link).retire k target)
  | ret (m : MStatus) (v : VsStatus) (tm : Mode) (epc : Word) (hmpp : s.Inv → m.mpp ∈ legalPrivs s.cfg)
      (hmode : s.Inv → hasMode s.cfg tm = true) :
      Result s i (State.returnTo { s with mstatus := m, vsstatus := v } tm epc)
  | read (rd : Reg) (t : Word) : Result s i (s.csrDone rd t)
  | write (c : Csr) (v : Word) (rd : Reg) (t : Word) : Result s i ((s.writeCsr c v).csrDone rd t)

section
variable {s t : State} {i : Instr}

theorem State.raise_result {e : Exc} (h : s.raise e = .next t) : s.Result i t := by
  rw [State.takeTrap_cases h]
  exact .trap e

theorem State.jump_result {k : Kind} {a : Word} {rd : Reg} {l : Word} (ha : s.Inv → i.wf = true → s.EvenTarget a)
    (h : s.jump k a rd l = .next t) : s.Result i t := by
  rcases State.jump_cases h with ⟨-, htrap⟩ | ⟨hmis, rfl⟩
  · exact State.raise_result htrap
  · exact .transfer k a rd l fun hinv hwf => State.codeAddr_of_not_misaligned (ha hinv hwf) hmis

/-- A branch links nothing, which is a link written to x0 (R11). -/
theorem State.retire_result (k : Kind) {a : Word} (ha : s.Inv → i.wf = true → CodeAddr s.cfg s.x a) :
    s.Result i (s.retire k a) :=
  .transfer k a 0 0 ha

theorem State.branch_result {j : Instr} {b : Bool} {a : Word} {n : Nat} (hn : n % codeAlign s.cfg = 0)
    (ha : s.Inv → i.wf = true → s.EvenTarget a) (h : s.branch j b a n = .next t) : s.Result i t := by
  rcases State.branch_cases h with ⟨-, rfl⟩ | ⟨-, hmis, rfl⟩ | ⟨-, -, htrap⟩
  · exact State.retire_result _ fun hinv _ => hinv.codeAddr_pcNext hn
  · exact State.retire_result _ fun hinv hwf => State.codeAddr_of_not_misaligned (ha hinv hwf) hmis
  · exact State.raise_result htrap

/-- What a compressed instruction does where it is legal may use the alignment of 2 (log 22). -/
theorem State.compressed_result {j : Instr} {o : Out} (h : s.compressed j o = .next t)
    (hrun : 2 % codeAlign s.cfg = 0 → o = .next t → s.Result i t) : s.Result i t := by
  rcases State.compressed_cases h with ⟨hC, ho⟩ | ⟨-, htrap⟩
  · exact hrun (by rw [codeAlign, if_pos hC]) ho
  · exact State.raise_result htrap

theorem State.csrOp_result {j : Instr} {n : CsrNum} {rd : Reg} {w : Option (Word → Word)}
    (h : s.csrOp j n rd w = .next t) : s.Result i t := by
  rcases State.csrOp_cases h with ⟨e, htrap⟩ | ⟨c, -, -, -, ⟨-, rfl⟩ | ⟨f, -, rfl⟩⟩
  · exact State.raise_result htrap
  · exact .read rd _
  · exact .write c _ rd _

/-- MPP after `mret` is the least level the hart has (R275). -/
theorem mretStatus_mpp_mem (cfg : Config) (m : MStatus) : (mretStatus cfg m).mpp ∈ legalPrivs cfg := by
  rw [mem_legalPrivs_iff]
  unfold mretStatus
  cases hU : cfg.hasU
  case true => exact .inr (.inr ⟨rfl, rfl⟩)
  case false => exact .inl rfl

theorem execMret_result (h : execMret s = .next t) : s.Result i t := by
  rcases execMret_cases h with ⟨-, rfl⟩ | ⟨-, -, htrap⟩
  · exact .ret _ s.vsstatus _ _ (fun _ => mretStatus_mpp_mem _ _) fun _ => hasMode_mretMode _ _
  · exact State.raise_result htrap

theorem execSret_result (h : execSret s = .next t) : s.Result i t := by
  rcases execSret_cases h with ⟨hret, -⟩ | ⟨hret, hmode⟩ | ⟨e, htrap⟩
  · obtain rfl := Host.Outcome.next.inj hret
    exact .ret _ s.vsstatus _ _ (fun hinv => hinv.mpp) fun _ => hasMode_sretMode _ _ _
  · obtain rfl := Host.Outcome.next.inj hret
    refine .ret s.mstatus _ _ _ (fun hinv => hinv.mpp) fun hinv => ?_
    have hH : s.cfg.hasH = true := by simpa [hmode, hasMode] using hinv.mode
    cases s.vsstatus.spp <;> exact hH
  · exact State.raise_result htrap

/-- Every instruction leaves one of these states. -/
theorem exec_result (h : exec i s = .next t) : s.Result i t := by
  have hfour : 4 % codeAlign s.cfg = 0 := by
    rcases codeAlign_cases s.cfg with ⟨-, hc⟩ | ⟨-, hc⟩ <;> rw [hc]
  cases i with
  | csrrw rd n rs1 => exact State.csrOp_result (w := some fun _ => s.reg rs1) h
  | csrrwi rd n uimm => exact State.csrOp_result (w := some fun _ => csrImm uimm) h
  | csrrs | csrrc | csrrsi | csrrci => exact State.csrOp_result h
  | jal rd off =>
    exact State.jump_result (fun hinv hwf => hinv.pcPlus_even (by decide) (Bool.eq_false_of_not_eq_true' hwf)) h
  | jalr rd rs1 imm => exact State.jump_result (fun _ _ => s.jalrTarget_even rs1 imm) h
  | beq | bne | blt | bge | bltu | bgeu =>
    exact State.branch_result hfour (fun hinv hwf => hinv.pcPlus_even (by decide) (Bool.eq_false_of_not_eq_true' hwf)) h
  | cj off =>
    refine State.compressed_result h fun _ hjump => State.jump_result (fun hinv hwf => ?_) hjump
    exact hinv.pcPlus_even (by decide) (Bool.eq_false_of_not_eq_true' hwf)
  | cjal off =>
    change execCjal off s = _ at h
    unfold execCjal at h
    split at h
    · refine State.compressed_result h fun _ hjump => State.jump_result (fun hinv hwf => ?_) hjump
      exact hinv.pcPlus_even (by decide) (Bool.eq_false_of_not_eq_true' hwf)
    · exact State.compressed_result h fun _ hrefused => nomatch hrefused
  | cjr rs1 | cjalr rs1 =>
    exact State.compressed_result h fun _ => State.jump_result fun _ _ => s.jalrTarget_even rs1 0
  | cbeqz | cbnez =>
    refine State.compressed_result h fun htwo hbranch => State.branch_result htwo (fun hinv hwf => ?_) hbranch
    exact hinv.pcPlus_even (by decide) (Bool.eq_false_of_not_eq_true' (Bool.and_eq_true_iff.mp hwf).2)
  | cebreak => exact State.compressed_result h fun _ => State.raise_result
  | mret => exact execMret_result h
  | sret => exact execSret_result h
  | ecall | ebreak => exact State.raise_result h

/-! ### Parameters and memory -/

theorem State.Result.cfg_mem (h : s.Result i t) : t.cfg = s.cfg ∧ t.mem = s.mem := by
  cases h with
  | trap e => exact ⟨s.trapInto_cfg _ _ _, s.trapInto_mem _ _ _⟩
  | transfer | ret | read => exact ⟨rfl, rfl⟩
  | write c v => exact ⟨s.writeCsr_cfg c v, s.writeCsr_mem c v⟩

/-- The two host instructions write one register and go on (log 9). -/
theorem execHost_cases {j : HostInstr} (h : execHost j s = .next t) : ∃ rd v, t = s.hostResult rd v := by
  cases j <;> exact ⟨_, _, (Host.Outcome.next.inj h).symm⟩

theorem runInstr_cfg_mem (h : s.runInstr = .next t) : t.cfg = s.cfg ∧ t.mem = s.mem := by
  obtain ⟨bytes, -, ⟨i, rest, -, hexec⟩ | ⟨j, -, hexec⟩⟩ := State.runInstr_cases h
  · exact (exec_result hexec).cfg_mem
  · obtain ⟨rd, v, rfl⟩ := execHost_cases hexec
    exact ⟨rfl, rfl⟩

/-- The debugger lets a hart in Debug Mode go on in a mode that it has (R219, log 41). -/
theorem envStep_debugExit_cases {m : Mode} {pc : Word} (h : envStep (.debugExit m pc) s = .next t) :
    hasMode s.cfg m = true ∧ t = s.exitDebug m pc := by
  unfold envStep at h
  dsimp only at h
  split at h
  case isTrue hexit => exact ⟨hexit.2.2, (Host.Outcome.next.inj h).symm⟩
  case isFalse => cases h

theorem envStep_cfg_mem {e : EnvEvent} (h : envStep e s = .next t) : t.cfg = s.cfg ∧ t.mem = s.mem := by
  cases e with
  | run | tick | counterStop | pending | debugEntry | reset =>
    obtain rfl := Host.Outcome.next.inj h
    exact ⟨rfl, rfl⟩
  | interrupt | exception =>
    rw [State.takeTrap_cases h]
    exact ⟨s.trapInto_cfg _ _ _, s.trapInto_mem _ _ _⟩
  | debugExit m pc =>
    obtain ⟨-, rfl⟩ := envStep_debugExit_cases h
    exact ⟨rfl, rfl⟩

end

/-- Settles O9: neither an instruction nor an event touches the parameters or the memory. -/
theorem stepKeepsConfigAndMemory : Obligations.StepKeepsConfigAndMemory := by
  intro s t h
  have hkept : t.cfg = s.cfg ∧ t.mem = s.mem := by
    rcases step_cases h with ⟨es, hrun⟩ | ⟨e, es, -, hev⟩
    · exact (runInstr_cfg_mem hrun :)
    · exact (envStep_cfg_mem hev :)
  exact ⟨hkept.1, fun a => by rw [hkept.2]⟩

/-! ### The invariant -/

/-- MPP saves a level that the hart has (R360). -/
theorem privOf_mem {cfg : Config} {m : Mode} (h : hasMode cfg m = true) : privOf m ∈ legalPrivs cfg := by
  rw [mem_legalPrivs_iff]
  cases m with
  | M | Debug => exact .inl rfl
  | S => exact .inr (.inl ⟨rfl, by rw [show cfg.hasS = true from h, Bool.true_or]⟩)
  | U => exact .inr (.inr ⟨rfl, by rw [show cfg.hasU = true from h, Bool.true_or]⟩)
  | VS => exact .inr (.inl ⟨rfl, by rw [show cfg.hasH = true from h, Bool.or_true]⟩)
  | VU => exact .inr (.inr ⟨rfl, by rw [show cfg.hasH = true from h, Bool.or_true]⟩)

theorem State.hasMode_trapTarget (s : State) (isInt : Bool) (cause : BitVec 6) :
    hasMode s.cfg (s.trapTarget isInt cause) = true := by
  rcases s.trapTarget_cases isInt cause with h | ⟨h, hS⟩ | ⟨h, -, hH⟩ <;> rw [h]
  · rfl
  · exact hS
  · exact hH

/-- A word of XLEN bits of any mode is one of MXLEN bits (R22). -/
theorem trunc_mxlen_of_trunc {cfg : Config} {m : Mode} {v : Word} (h : trunc (xlenOf cfg m) v = v) :
    trunc cfg.mxlen v = v := by
  rw [← h]
  apply BitVec.eq_of_getLsbD_eq
  intro k _
  have hle := xbits_xlenOf_le cfg m
  rw [trunc_getLsbD, trunc_getLsbD, ← Bool.and_assoc, ← Bool.decide_and]
  congr 2
  grind

section
variable {s : State}

/-- A state of the same hart and memory, part by part. -/
theorem State.Inv.update (h : s.Inv) {t : State} (hcfg : t.cfg = s.cfg) (hmem : t.mem = s.mem)
    (hctr : t.ctr.Inv s.cfg) (hmode : hasMode s.cfg t.mode = true) (hmpp : t.mstatus.mpp ∈ legalPrivs s.cfg)
    (hpc : CodeAddr s.cfg (xlenOf s.cfg t.mode) t.pc) (hmstateen : t.mstateen0 &&& ~~~stateenMask = 0)
    (hhstateen : t.hstateen0 &&& ~~~stateenMask = 0) : t.Inv where
  cfg := by rw [hcfg, h.cfg]
  ctr := by rw [hcfg]; exact hctr
  mode := by rw [hcfg, hmode]
  mpp := by rw [hcfg]; exact hmpp
  pc := by rw [State.x, hcfg, hpc.width]
  align := by rw [hcfg, hpc.align]
  mem := by rw [hmem, h.mem]
  mstateen := hmstateen
  hstateen := hhstateen

/-- A change of the recorder alone. -/
theorem State.Inv.with_ctr (h : s.Inv) {c : Ctr} (hc : c.Inv s.cfg) : State.Inv { s with ctr := c } :=
  h.update rfl rfl hc h.mode h.mpp h.codeAddr h.mstateen h.hstateen

/-! ### Shared operations -/

theorem State.Inv.trapInto (h : s.Inv) (isInt : Bool) (e : Exc) {tm : Mode} (htm : hasMode s.cfg tm = true) :
    (s.trapInto isInt e tm).Inv := by
  refine h.update (s.trapInto_cfg _ _ _) (s.trapInto_mem _ _ _) ?ctr htm ?mpp ?pc ?mstateen ?hstateen
  case ctr => exact (h.ctr.onTrap h.cfg isInt e.cause s.mode tm s.pc _ _).settle tm
  case mpp =>
    cases tm with
    | M => exact privOf_mem h.mode
    | _ => exact h.mpp
  case pc => exact codeAddr_handlerAddr _ _ _ _ _
  case mstateen => rw [State.trapInto_mstateen0, h.mstateen]
  case hstateen => rw [State.trapInto_hstateen0, h.hstateen]

theorem State.Inv.takeTrap (h : s.Inv) {isInt : Bool} {e : Exc} {t : State} (ht : s.takeTrap isInt e = .next t) :
    t.Inv := by
  rw [State.takeTrap_cases ht]
  exact h.trapInto isInt e (s.hasMode_trapTarget _ _)

theorem State.Inv.retire (h : s.Inv) (k : Kind) {a : Word} (ha : CodeAddr s.cfg s.x a) (rd : Reg) (l : Word) :
    ((s.setReg rd l).retire k a).Inv :=
  h.update rfl rfl ((h.ctr.onRetire h.cfg k s.mode s.pc a _).settle s.mode) h.mode h.mpp ha h.mstateen h.hstateen

theorem State.Inv.returnTo (h : s.Inv) {m : MStatus} (hm : m.mpp ∈ legalPrivs s.cfg) (v : VsStatus) {tm : Mode}
    (htm : hasMode s.cfg tm = true) (epc : Word) :
    (State.returnTo { s with mstatus := m, vsstatus := v } tm epc).Inv :=
  h.update rfl rfl ((h.ctr.onTrapReturn h.cfg s.mode tm s.pc _ _).settle tm) htm hm (codeAddr_epc _ _ _)
    h.mstateen h.hstateen

theorem State.Inv.codeAddr_pcNext_four (h : s.Inv) : CodeAddr s.cfg s.x (s.pcNext 4) :=
  h.codeAddr_pcNext (by rcases codeAlign_cases s.cfg with ⟨-, hc⟩ | ⟨-, hc⟩ <;> rw [hc])

theorem State.Inv.csrDone (h : s.Inv) (rd : Reg) (t : Word) : (s.csrDone rd t).Inv :=
  h.update rfl rfl (h.ctr.settle s.mode) h.mode h.mpp h.codeAddr_pcNext_four h.mstateen h.hstateen

theorem State.Inv.hostResult (h : s.Inv) (rd : Reg) (v : Word) : (s.hostResult rd v).Inv :=
  h.update rfl rfl h.ctr h.mode h.mpp h.codeAddr_pcNext_four h.mstateen h.hstateen

/-! ### Writes of the registers -/

theorem State.Inv.writeCsr_ctr (h : s.Inv) (c : Csr) (v : Word) : (s.writeCsr c v).ctr.Inv s.cfg := by
  unfold State.writeCsr
  cases aliasOf s.mode c with
  | mctrcontrol | mctrcontrolh =>
    dsimp only
    exact h.ctr.writeMctl h.cfg _ _ _ _
  | mctrstatus | sctrstatus =>
    dsimp only
    exact h.ctr.writeStatus _
  | sctrcontrol | sctrcontrolh =>
    dsimp only
    split
    case isTrue => exact h.ctr.writeVsctl _ _ _ _
    case isFalse => exact h.ctr.writeMctl h.cfg _ _ _ _
  | vsctrcontrol | vsctrcontrolh =>
    dsimp only
    exact h.ctr.writeVsctl _ _ _ _
  | mireg | sireg | vsireg =>
    dsimp only
    exact h.ctr.writeEntry _ s.mode _ _ _
  | _ => exact h.ctr

theorem State.Inv.writeCsr_mpp (h : s.Inv) (c : Csr) (v : Word) :
    (s.writeCsr c v).mstatus.mpp ∈ legalPrivs s.cfg := by
  unfold State.writeCsr
  cases aliasOf s.mode c with
  | mstatus => exact legalizeMpp_mem _ _ _
  | _ => exact h.mpp

/-- A write of a state enable covers held bits only (log 35). -/
theorem mergeBits_stateen_within {old : Word} (hold : old &&& ~~~stateenMask = 0) (v cover : Word) :
    mergeBits old v (cover &&& stateenMask) &&& ~~~stateenMask = 0 :=
  mergeBits_within hold v fun k _ hbit => by
    rw [BitVec.getLsbD_and, Bool.and_eq_true] at hbit
    exact hbit.2

theorem State.Inv.writeCsr_mstateen (h : s.Inv) (c : Csr) (v : Word) :
    (s.writeCsr c v).mstateen0 &&& ~~~stateenMask = 0 := by
  unfold State.writeCsr
  cases aliasOf s.mode c with
  | mstateen0 | mstateen0h => exact mergeBits_stateen_within h.mstateen _ _
  | _ => exact h.mstateen

theorem State.Inv.writeCsr_hstateen (h : s.Inv) (c : Csr) (v : Word) :
    (s.writeCsr c v).hstateen0 &&& ~~~stateenMask = 0 := by
  unfold State.writeCsr
  cases aliasOf s.mode c with
  | hstateen0 | hstateen0h => exact mergeBits_stateen_within h.hstateen _ _
  | _ => exact h.hstateen

theorem State.Inv.writeCsr (h : s.Inv) (c : Csr) (v : Word) : (s.writeCsr c v).Inv := by
  refine h.update (s.writeCsr_cfg c v) (s.writeCsr_mem c v) (h.writeCsr_ctr c v) ?mode (h.writeCsr_mpp c v) ?pc
    (h.writeCsr_mstateen c v) (h.writeCsr_hstateen c v)
  case mode => rw [State.writeCsr_mode, h.mode]
  case pc =>
    rw [State.writeCsr_mode, State.writeCsr_pc]
    exact h.codeAddr

/-! ### Instructions and events -/

theorem State.Inv.of_result (h : s.Inv) {i : Instr} (hwf : i.wf = true) {t : State} (ht : s.Result i t) : t.Inv := by
  cases ht with
  | trap e => exact h.trapInto false e (s.hasMode_trapTarget _ _)
  | transfer k a rd l htarget => exact h.retire k (htarget h hwf) rd l
  | ret m v tm epc hmpp hmode => exact h.returnTo (hmpp h) v (hmode h) epc
  | read rd t => exact h.csrDone rd t
  | write c v rd t => exact (h.writeCsr c v).csrDone rd t

theorem State.Inv.runInstr (h : s.Inv) {t : State} (hrun : s.runInstr = .next t) : t.Inv := by
  obtain ⟨bytes, -, ⟨i, rest, hdecode, hexec⟩ | ⟨j, -, hexec⟩⟩ := State.runInstr_cases hrun
  · exact h.of_result (decodedIsWellFormed _ _ _ hdecode).1 (exec_result hexec)
  · obtain ⟨rd, v, rfl⟩ := execHost_cases hexec
    exact h.hostResult rd v

/-- Debug Mode has M-mode's XLEN (decision D16). -/
theorem State.Inv.enterDebug (h : s.Inv) : s.enterDebug.Inv :=
  h.update rfl rfl (h.ctr.settle .Debug) rfl h.mpp ⟨trunc_mxlen_of_trunc h.pc, h.align⟩ h.mstateen h.hstateen

theorem State.Inv.exitDebug (h : s.Inv) {m : Mode} (hm : hasMode s.cfg m = true) (pc : Word) :
    (s.exitDebug m pc).Inv :=
  h.update rfl rfl (h.ctr.settle m) hm h.mpp (codeAddr_epc _ _ _) h.mstateen h.hstateen

theorem State.Inv.resetEvent (h : s.Inv) : s.resetEvent.Inv :=
  h.update rfl rfl ((drawCtr_inv h.cfg _ _).settle .M) rfl (legalizeMpp_mem _ _ _) (codeAddr_epc _ _ _)
    BitVec.zero_and (and_and_not_self _ _)

theorem State.Inv.envStep (h : s.Inv) {e : EnvEvent} {t : State} (hev : envStep e s = .next t) : t.Inv := by
  cases e with
  | run => exact Host.Outcome.next.inj hev ▸ h
  | tick => exact Host.Outcome.next.inj hev ▸ h.with_ctr (h.ctr.onTick _)
  | counterStop => exact Host.Outcome.next.inj hev ▸ h.with_ctr h.ctr.onCounterStop
  | pending bits =>
    obtain rfl := Host.Outcome.next.inj hev
    exact h.update rfl rfl h.ctr h.mode h.mpp h.codeAddr h.mstateen h.hstateen
  | interrupt | exception => exact h.takeTrap hev
  | debugEntry => exact Host.Outcome.next.inj hev ▸ h.enterDebug
  | debugExit m pc =>
    obtain ⟨hm, rfl⟩ := envStep_debugExit_cases hev
    exact h.exitDebug hm pc
  | reset => exact Host.Outcome.next.inj hev ▸ h.resetEvent

end

/-- Settles O7: the step runs an instruction or takes an event, after an event is used up, and each keeps every part of
the invariant. -/
theorem stepKeepsInvariant : Obligations.StepKeepsInvariant := by
  intro s t h hstep
  have hused (es : List EnvEvent) : State.Inv { s with env := es } :=
    h.update rfl rfl h.ctr h.mode h.mpp h.codeAddr h.mstateen h.hstateen
  rcases step_cases hstep with ⟨es, hrun⟩ | ⟨e, es, -, hev⟩
  · exact (hused es).runInstr hrun
  · exact (hused es).envStep hev

/-- Settles O8: part by part, on the reset state. -/
theorem resetMeetsInvariant : Obligations.ResetMeetsInvariant where
  cfg := by decide
  ctr := Ctr.reset_inv.congr rfl rfl rfl rfl
  mode := rfl
  mpp := by decide
  pc := by decide
  align := by decide
  mem := rfl
  mstateen := BitVec.zero_and
  hstateen := BitVec.zero_and

end Sys2Proof.Machine
end
